-- ==== Sys2Proof/Word.lean ====
section
/-! DEFINITION. The word types of the block: the byte (00_scope.md R9) and the operation word (10_state.md R14). -/

namespace Sys2Proof

/-- R9: an unsigned integer 0 to 255; bit 7 is the most significant bit. -/
abbrev Byte := BitVec 8

/-- R14, R50: the operation word `OPW`, 18 bits. -/
abbrev OpWord := BitVec 18

end Sys2Proof
end

