-- ==== Sys2Proof/Config.lean ====
section
/-! DEFINITION. The configuration registers of 00_scope.md R5 and 10_state.md R19, their reset values, and the free
values the spec leaves open (opaque constants: nothing can evaluate them). -/

namespace Sys2Proof

/-- The error classes of 10_state.md R18, named as there. -/
inductive ErrClass where
  | unknown | noMedia | endOfMedia | tapeCutJam | replaceMedia | bufferFull
  | transmissionError | transmissionBufferFull | coverOpen
  deriving DecidableEq, Repr

/-- R5, R19: the parameters "fixed by the source", which "need no setting" (R172): no move writes them (log 11). The
machine reads each of them here and nowhere takes its value for granted. -/
structure Format where
  /-- `XFER_OP` -/
  xferOp : Byte
  /-- `LEN_BYTES`, the width of the packet's length field in bytes -/
  lenBytes : Nat
  /-- `FRAME_LEN` -/
  frameLen : Nat
  /-- `MAGIC_LEN` -/
  magicLen : Nat
  /-- `OFF_*`, the ten offsets of a frame -/
  offBattery : Nat
  offExtError : Nat
  offError1 : Nat
  offError2 : Nat
  offMediaWidth : Nat
  offMediaType : Nat
  offMediaLength : Nat
  offStatusType : Nat
  offPhaseType : Nat
  offNotification : Nat
  deriving DecidableEq, Repr

/-- R5: the values the source gives. -/
def Format.source : Format where
  xferOp := 0x47#8
  lenBytes := 2
  frameLen := 32
  magicLen := 8
  offBattery := 6
  offExtError := 7
  offError1 := 8
  offError2 := 9
  offMediaWidth := 10
  offMediaType := 11
  offMediaLength := 17
  offStatusType := 18
  offPhaseType := 19
  offNotification := 22

/-- The length of a packet's header, the opcode and the length field (R51). -/
def Format.headerLen (p : Format) : Nat := 1 + p.lenBytes

/-- The ten offsets. -/
def Format.offsets (p : Format) : List Nat :=
  [p.offBattery, p.offExtError, p.offError1, p.offError2, p.offMediaWidth, p.offMediaType, p.offMediaLength,
   p.offStatusType, p.offPhaseType, p.offNotification]

/-- The magic and every named byte lie in the frame, so that PARSE reads no byte that is not there (R9). -/
def Format.wf (p : Format) : Bool := p.magicLen ≤ p.frameLen && p.offsets.all (· < p.frameLen)

/-- R172: the parameters the host sets before the first operation. -/
structure Settings where
  /-- `L`, bytes in one raster line. -/
  L : Nat
  /-- `MAGIC`, the header bytes; its value is open (D10). -/
  magic : List Byte
  /-- `STATUS_TYPE_KNOWN`, codes with their names; open (D11). -/
  statusTypeKnown : List (Byte × String)
  /-- `BATTERY_KNOWN`, codes with their names; open (D11). -/
  batteryKnown : List (Byte × String)
  /-- `E1_FLAGS`, masks in priority order. -/
  e1Flags : List (Byte × ErrClass)
  /-- `E2_FLAGS`, masks in priority order. -/
  e2Flags : List (Byte × ErrClass)
  /-- `MAX_BYTES`, the capacity of `IN` and of `OUT`; open (D20). -/
  maxBytes : Nat
  deriving DecidableEq, Repr

/-- R5, R19: the configuration registers. -/
structure Config extends Settings, Format where
  deriving DecidableEq, Repr

/-- R6, R172: `1 <= L`, a payload of `2 * L` bytes has a representable length, and `len(MAGIC) = MAGIC_LEN`. With the
source's `LEN_BYTES` and `MAGIC_LEN` this is "`1 <= L <= 32767` and `len(MAGIC) = 8`". -/
def Config.wf (c : Config) : Bool :=
  1 ≤ c.L && 2 * c.L < 256 ^ c.lenBytes && c.magic.length == c.magicLen && c.toFormat.wf

/-- R5: `H = 8 * L`, the buffer height in pixels. -/
def Config.height (c : Config) : Nat := 8 * c.L

/-- R60, the default of `STATUS_TYPE_KNOWN` (general knowledge G4). PRESUMED (log 6), unsafe. -/
def Config.defaultStatusTypes : List (Byte × String) :=
  [(0x00#8, "reply"), (0x01#8, "printing-complete"), (0x02#8, "error"), (0x03#8, "IF-mode-finished"),
   (0x04#8, "power-off"), (0x05#8, "notification"), (0x06#8, "phase-change")]

/-- R60, the default of `BATTERY_KNOWN` (general knowledge G5). PRESUMED (log 6), unsafe. -/
def Config.defaultBattery : List (Byte × String) :=
  [(0x00#8, "full"), (0x01#8, "half"), (0x02#8, "low"), (0x03#8, "change batteries"),
   (0x04#8, "running on external power")]

/-- R59, `E1_FLAGS`; the mask of no-media is the source's, the others decision D12. PRESUMED (log 6), unsafe. -/
def Config.defaultE1Flags : List (Byte × ErrClass) :=
  [(0x01#8, .noMedia), (0x02#8, .endOfMedia), (0x04#8, .tapeCutJam)]

/-- R59, `E2_FLAGS`; the mask of cover-open is the source's, the others decision D12. PRESUMED (log 6), unsafe. -/
def Config.defaultE2Flags : List (Byte × ErrClass) :=
  [(0x01#8, .replaceMedia), (0x02#8, .bufferFull), (0x04#8, .transmissionError),
   (0x08#8, .transmissionBufferFull), (0x10#8, .coverOpen)]

/-- The settings after reset. R22 leaves them unspecified: the reference device's `L`, eight zero bytes for `MAGIC`,
the default tables of R59 and R60, and room for the output of the longest job R131 allows at `L = 16`
(65535 lines of at most 35 bytes, R79). DESIGN CHOICE (log 6), unsafe. -/
def Settings.atReset : Settings where
  L := 16
  magic := List.replicate 8 0x00#8
  statusTypeKnown := Config.defaultStatusTypes
  batteryKnown := Config.defaultBattery
  e1Flags := Config.defaultE1Flags
  e2Flags := Config.defaultE2Flags
  maxBytes := 2293725

/-- The configuration after reset: those settings, and what the source fixes (R5). -/
def Config.atReset : Config where
  toSettings := Settings.atReset
  toFormat := Format.source

/-- Free bytes, by draw number and position: what `LINE` holds between operations (93_implementation_defined.md U8).
log 7, safe. -/
opaque Config.freeByte : Nat → Nat → Byte

/-- Free naturals, by draw number: what `K` and `POS` hold between operations (U8), and how many bytes of a failed
write reached the printer (log 15). log 7, safe. -/
opaque Config.freeNat : Nat → Nat

/-! ## The print job's operands (44_wire_command_context.md) -/

/-- R141: the boolean fields of a `PrintConfig`. -/
inductive Toggle where
  | mirrorPrinting | autoTapeCut | halfCut | chainPrint | labelEndCut | highResolution | bufferClearSuppression
  deriving DecidableEq, Repr

/-- R141: the print job's toggles. -/
structure PrintConfig where
  mirrorPrinting : Bool
  autoTapeCut : Bool
  halfCut : Bool
  chainPrint : Bool
  labelEndCut : Bool
  highResolution : Bool
  bufferClearSuppression : Bool
  /-- the feed margin as a 16-bit value (R134) -/
  feedMargin : BitVec 16
  deriving DecidableEq, Repr

/-- The two flag bytes derived from a `PrintConfig` (R132, R133). -/
inductive FlagByte where
  | mode | expanded
  deriving DecidableEq, Repr, Inhabited

/-- R141: where a field goes, "a bit ... in a specific command", and what it makes the bit when it is on. -/
structure BitPlace where
  byte : FlagByte
  bit : Fin 8
  whenOn : Bool
  deriving DecidableEq, Repr, Inhabited

/-- The place of each field: not in the source (N12), so it is free. log 25, safe. -/
opaque Config.placeOf : Toggle → BitPlace

/-- The bits of a flag byte that no field sets: not in the source (N12), so they are free. log 25, safe. -/
opaque Config.flagBase : FlagByte → Byte

/-- R130: the items of the media format before the raster-line count. The units are not in the source. -/
structure MediaFormat where
  quality : Bool
  continuous : Bool
  tapeWidth : Nat
  labelLength : Nat
  deriving DecidableEq, Repr

/-- How many bytes the two flags, the tape width, the label length and the padding of the media format take: not in the
source (N12, U13), so the numbers are free. log 33, safe. -/
opaque Config.mediaFlagCount : Nat
opaque Config.tapeWidthCount : Nat
opaque Config.labelLengthCount : Nat
opaque Config.mediaPaddingCount : Nat

/-- The bytes of those items and of the padding, by position: not in the source, so they are free. log 33, safe. -/
opaque Config.mediaFlagByte : Bool → Bool → Nat → Byte
opaque Config.tapeWidthByte : Nat → Nat → Byte
opaque Config.labelLengthByte : Nat → Nat → Byte
opaque Config.mediaPaddingByte : Nat → Byte

end Sys2Proof
end

