-- ==== Sys2Proof/Syntax.lean ====
section
/-! DEFINITION. The instructions: one constructor per row of spec/opcode_table.json. -/

namespace Sys2Proof

/-- The 19 rows of the opcode table, in its order. Four spaces: operation words (30_encoding.md R50), packet stream
(R51, R57), payload tokens (R54), host wire commands (44_wire_command_context.md R126 to R137). -/
inductive Instr where
  /-- ENCODE, 40_encode.md R70 -/
  | encode
  /-- DECODE, 41_decode.md R85 -/
  | decode
  /-- PARSE, 42_status_parse.md R100 -/
  | parse
  /-- CLASSIFY e1, e2, 43_error_classify.md R115 -/
  | classify (e1 e2 : Byte)
  /-- XFER: a transfer packet with its payload, R51 -/
  | xfer (payload : List Byte)
  /-- LIT: literal bytes, R54 -/
  | lit (data : List Byte)
  /-- REP: `count` copies of one byte, R54 -/
  | rep (count : Nat) (b : Byte)
  /-- NOP: the token without output, R54 -/
  | nop
  /-- ILLEGAL_STREAM_OPCODE: a byte other than 0x47 where a packet must start, R57, R86 -/
  | illegalStreamOpcode (b : Byte)
  /-- ENTER_RASTER mode, R126 -/
  | enterRaster (mode : Byte)
  /-- INITIALIZE, R127 -/
  | initPrinter
  /-- QUERY_STATUS, R128 -/
  | queryStatus
  /-- FLUSH: `count` zero bytes (reference 64), R129 -/
  | flush (count : Nat)
  /-- SET_MEDIA_FORMAT with its operand bytes, R130 -/
  | setMediaFormat (flags : List Byte)
  /-- SET_MODE_FLAGS, R132 -/
  | setModeFlags (flags : Byte)
  /-- SET_EXPANDED_MODE, R133 -/
  | setExpandedMode (flags : Byte)
  /-- SET_MARGIN lo hi, R134 -/
  | setMargin (lo hi : Byte)
  /-- SET_COMPRESSION (the RLE codec identifier), R135 -/
  | setCompression
  /-- PRINT_AND_FEED, R137 -/
  | printAndFeed
  deriving DecidableEq, Repr

end Sys2Proof
end

