-- ==== Sys2Proof/WellFormed.lean ====
section
/-! DEFINITION. Which instructions an encoding exists for: the operand ranges of 30_encoding.md. -/

namespace Sys2Proof

/-- The operand ranges: a payload length fits the length field, 16 bits (R52); a `LIT` holds 1 to 128 bytes and a `REP` 2 to 128 copies
(R55); an illegal stream opcode is not `XFER_OP` (R57); a flush writes at least one byte (R129). -/
def Instr.wf (p : Format) : Instr → Bool
  | .encode => true
  | .decode => true
  | .parse => true
  | .classify _ _ => true
  | .xfer payload => payload.length < 256 ^ p.lenBytes
  | .lit data => 1 ≤ data.length && data.length ≤ 128
  | .rep count _ => 2 ≤ count && count ≤ 128
  | .nop => true
  | .illegalStreamOpcode b => b != p.xferOp
  | .enterRaster _ => true
  | .initPrinter => true
  | .queryStatus => true
  | .flush count => 1 ≤ count
  | .setMediaFormat _ => true
  | .setModeFlags _ => true
  | .setExpandedMode _ => true
  | .setMargin _ _ => true
  | .setCompression => true
  | .printAndFeed => true

end Sys2Proof
end

