-- ==== Sys2Proof/Decode.lean ====
section
/-! DEFINITION. Decoding and encoding, 30_encoding.md. The four code spaces share byte values (a 0x1A is a `LIT` token,
a command, an illegal stream opcode), so a code carries its space. -/

namespace Sys2Proof

/-- R9: `le16(lo, hi) = lo + 256 * hi`, the payload length of R52. -/
def le16 (lo hi : Byte) : Nat := lo.toNat + 256 * hi.toNat

/-- R9: `lo8(v) = v mod 256`. -/
def lo8 (v : Nat) : Byte := BitVec.ofNat 8 (v % 256)

/-- R9: `hi8(v) = (v div 256) mod 256`. -/
def hi8 (v : Nat) : Byte := BitVec.ofNat 8 (v / 256 % 256)

/-- R33, R52: the length field read low byte first; with the source's two bytes it is `le16`. -/
def leNat : List Byte → Nat
  | [] => 0
  | b :: bs => b.toNat + 256 * leNat bs

/-- R33, R74: the `n` bytes of the length field that hold `v`, low byte first; with two bytes `[lo8(v), hi8(v)]`. -/
def leBytes : Nat → Nat → List Byte
  | 0, _ => []
  | n + 1, v => lo8 v :: leBytes n (v / 256)

/-- A piece of code in its space. Bytes stand in stream order; for a packet or a token the code that follows may stand
behind it, a wire command is exactly its bytes. -/
inductive Code where
  | op (w : OpWord)
  | packet (bs : List Byte)
  | token (bs : List Byte)
  | command (bs : List Byte)
  deriving DecidableEq, Repr

/-- Why a piece of code stands for no instruction. -/
inductive DecodeError where
  /-- no byte at all -/
  | exhausted
  /-- R87: the stream ends inside the packet header, `left` bytes of it present -/
  | headerTruncated (left : Nat)
  /-- R87: the declared length `n` runs past the end of the buffer -/
  | lengthOverrun (n : Nat)
  /-- R56, R89: the payload ends inside a token -/
  | tokenTruncated
  /-- R125: the bytes begin no command of the set -/
  | unknownCommand
  /-- R125: a command of the set with too few or too many operand bytes -/
  | wrongOperands
  deriving DecidableEq, Repr

/-! ## Decoding -/

/-- R50: `OPW[1:0] = OP`, `OPW[9:2] = E1`, `OPW[17:10] = E2`; no word is illegal. -/
def decodeOp (w : OpWord) : Instr :=
  if w.extractLsb' 0 2 = 0#2 then .encode
  else if w.extractLsb' 0 2 = 1#2 then .decode
  else if w.extractLsb' 0 2 = 2#2 then .parse
  else .classify (w.extractLsb' 2 8) (w.extractLsb' 10 8)

/-- What stands at a position where a packet must start. -/
inductive PacketRead where
  | exhausted
  | illegal (b : Byte)
  | truncated (left : Nat)
  | overrun (n : Nat)
  | packet (payload rest : List Byte)
  deriving DecidableEq, Repr

/-- R51, R52, R57, R85 to R87: opcode, then header, then declared length, in this order (R90). -/
def readPacket (p : Format) : List Byte → PacketRead
  | [] => .exhausted
  | b :: tl =>
    if b ≠ p.xferOp then .illegal b
    else if tl.length < p.lenBytes then .truncated (1 + tl.length)
    else if tl.length - p.lenBytes < leNat (tl.take p.lenBytes) then .overrun (leNat (tl.take p.lenBytes))
    else
      .packet ((tl.drop p.lenBytes).take (leNat (tl.take p.lenBytes)))
        ((tl.drop p.lenBytes).drop (leNat (tl.take p.lenBytes)))

/-- What stands at a position where a token must start. -/
inductive TokenRead where
  | exhausted
  | truncated
  | literal (data rest : List Byte)
  | run (count : Nat) (b : Byte) (rest : List Byte)
  | skip (rest : List Byte)
  deriving DecidableEq, Repr

/-- R54, R55, R89: control byte 0x00 to 0x7F a `LIT` of `c + 1` bytes, 0x80 the `NOP`, else a `REP` of `257 - c`. -/
def readToken : List Byte → TokenRead
  | [] => .exhausted
  | c :: tl =>
    if c.toNat ≤ 0x7F then
      if tl.length < c.toNat + 1 then .truncated
      else .literal (tl.take (c.toNat + 1)) (tl.drop (c.toNat + 1))
    else if c = 0x80#8 then .skip tl
    else match tl with
      | [] => .truncated
      | b :: rest => .run (257 - c.toNat) b rest

/-- R126 to R137: the ten wire commands, each exactly its bytes. -/
def decodeCommand (bs : List Byte) : Except DecodeError Instr :=
  if bs = [] then .error .exhausted
  else if bs.all (· == 0x00#8) then .ok (.flush bs.length)
  else if bs = [0x1A#8] then .ok .printAndFeed
  else if bs = [0x1B#8, 0x40#8] then .ok .initPrinter
  else if bs = [0x4D#8, 0x02#8] then .ok .setCompression
  else if bs.take 3 = [0x1B#8, 0x69#8, 0x7A#8] then .ok (.setMediaFormat (bs.drop 3))
  else if bs.take 3 = [0x1B#8, 0x69#8, 0x53#8] then
    match bs.drop 3 with
    | [] => .ok .queryStatus
    | _ => .error .wrongOperands
  else if bs.take 3 = [0x1B#8, 0x69#8, 0x61#8] then
    match bs.drop 3 with
    | [m] => .ok (.enterRaster m)
    | _ => .error .wrongOperands
  else if bs.take 3 = [0x1B#8, 0x69#8, 0x4D#8] then
    match bs.drop 3 with
    | [f] => .ok (.setModeFlags f)
    | _ => .error .wrongOperands
  else if bs.take 3 = [0x1B#8, 0x69#8, 0x4B#8] then
    match bs.drop 3 with
    | [f] => .ok (.setExpandedMode f)
    | _ => .error .wrongOperands
  else if bs.take 3 = [0x1B#8, 0x69#8, 0x64#8] then
    match bs.drop 3 with
    | [lo, hi] => .ok (.setMargin lo hi)
    | _ => .error .wrongOperands
  else .error .unknownCommand

/-- The instruction a piece of code stands for, with the code left behind it. Total; a refusal has a name. -/
def decode (p : Format) : Code → Except DecodeError (Instr × List Byte)
  | .op w => .ok (decodeOp w, [])
  | .packet bs =>
    match readPacket p bs with
    | .exhausted => .error .exhausted
    | .illegal b => .ok (.illegalStreamOpcode b, bs.drop 1)
    | .truncated left => .error (.headerTruncated left)
    | .overrun n => .error (.lengthOverrun n)
    | .packet payload rest => .ok (.xfer payload, rest)
  | .token bs =>
    match readToken bs with
    | .exhausted => .error .exhausted
    | .truncated => .error .tokenTruncated
    | .literal data rest => .ok (.lit data, rest)
    | .run count b rest => .ok (.rep count b, rest)
    | .skip rest => .ok (.nop, rest)
  | .command bs =>
    match decodeCommand bs with
    | .ok i => .ok (i, [])
    | .error e => .error e

/-! ## Encoding -/

/-- R50: the operation word of an operation code and two operand bytes. -/
def opWord (op : BitVec 2) (e1 e2 : Byte) : OpWord := e2 ++ e1 ++ op

/-- R75: `EMIT_REP(r, b)` is `[257 - r, b]`. -/
def emitRep (r : Nat) (b : Byte) : List Byte := [BitVec.ofNat 8 (257 - r), b]

/-- R75: `EMIT_LIT(s)` is `[len(s) - 1] ++ s`. -/
def emitLit (s : List Byte) : List Byte := BitVec.ofNat 8 (s.length - 1) :: s

/-- R51, R74: the packet of a payload, opcode and little-endian length in front. -/
def wrapPacket (p : Format) (payload : List Byte) : List Byte :=
  p.xferOp :: (leBytes p.lenBytes payload.length ++ payload)

/-- The bytes of a wire command, R126 to R137; none for an instruction of another space. -/
def commandBytes : Instr → List Byte
  | .encode => []
  | .decode => []
  | .parse => []
  | .classify _ _ => []
  | .xfer _ => []
  | .lit _ => []
  | .rep _ _ => []
  | .nop => []
  | .illegalStreamOpcode _ => []
  | .enterRaster mode => [0x1B#8, 0x69#8, 0x61#8, mode]
  | .initPrinter => [0x1B#8, 0x40#8]
  | .queryStatus => [0x1B#8, 0x69#8, 0x53#8]
  | .flush count => List.replicate count 0x00#8
  | .setMediaFormat flags => [0x1B#8, 0x69#8, 0x7A#8] ++ flags
  | .setModeFlags flags => [0x1B#8, 0x69#8, 0x4D#8, flags]
  | .setExpandedMode flags => [0x1B#8, 0x69#8, 0x4B#8, flags]
  | .setMargin lo hi => [0x1B#8, 0x69#8, 0x64#8, lo, hi]
  | .setCompression => [0x4D#8, 0x02#8]
  | .printAndFeed => [0x1A#8]

/-- The code of an instruction. The operand bytes that R50 says ENCODE, DECODE and PARSE ignore are zero. -/
def encode (p : Format) : Instr → Code
  | .encode => .op (opWord 0#2 0#8 0#8)
  | .decode => .op (opWord 1#2 0#8 0#8)
  | .parse => .op (opWord 2#2 0#8 0#8)
  | .classify e1 e2 => .op (opWord 3#2 e1 e2)
  | .xfer payload => .packet (wrapPacket p payload)
  | .lit data => .token (emitLit data)
  | .rep count b => .token (emitRep count b)
  | .nop => .token [0x80#8]
  | .illegalStreamOpcode b => .packet [b]
  | .enterRaster mode => .command (commandBytes (.enterRaster mode))
  | .initPrinter => .command (commandBytes .initPrinter)
  | .queryStatus => .command (commandBytes .queryStatus)
  | .flush count => .command (commandBytes (.flush count))
  | .setMediaFormat flags => .command (commandBytes (.setMediaFormat flags))
  | .setModeFlags flags => .command (commandBytes (.setModeFlags flags))
  | .setExpandedMode flags => .command (commandBytes (.setExpandedMode flags))
  | .setMargin lo hi => .command (commandBytes (.setMargin lo hi))
  | .setCompression => .command (commandBytes .setCompression)
  | .printAndFeed => .command (commandBytes .printAndFeed)

/-- The code with the bytes `more` behind it: only a packet stream or a payload goes on. -/
def Code.followedBy (more : List Byte) : Code → Code
  | .op w => .op w
  | .packet bs => .packet (bs ++ more)
  | .token bs => .token (bs ++ more)
  | .command bs => .command bs

/-- How many bits the code has: 18 for an operation word (R50), 8 a byte otherwise. -/
def Code.bits : Code → Nat
  | .op _ => 18
  | .packet bs => 8 * bs.length
  | .token bs => 8 * bs.length
  | .command bs => 8 * bs.length

/-! ## The opcode table's words -/

/-- The `n` bytes of `w`, the most significant first: how the table writes the bytes of a wire command. -/
def bytesMsbFirst (n w : Nat) : List Byte :=
  (List.range n).map fun i => BitVec.ofNat 8 (w / 256 ^ (n - 1 - i) % 256)

/-- The `n` bytes of `w`, the least significant first. -/
def bytesLsbFirst (n w : Nat) : List Byte :=
  (List.range n).map fun i => BitVec.ofNat 8 (w / 256 ^ i % 256)

/-- A command's bytes with the zero operand bytes the table leaves out. -/
def padCommand (bs : List Byte) : List Byte :=
  if bs = [0x1B#8, 0x69#8, 0x61#8] ∨ bs = [0x1B#8, 0x69#8, 0x4D#8] ∨ bs = [0x1B#8, 0x69#8, 0x4B#8] then bs ++ [0x00#8]
  else if bs = [0x1B#8, 0x69#8, 0x64#8] then bs ++ [0x00#8, 0x00#8]
  else bs

/-- A command in the table's byte order, or least significant byte first where only that is a command. -/
def tableCommand (n w : Nat) : Code :=
  match decodeCommand (padCommand (bytesMsbFirst n w)) with
  | .ok _ => .command (padCommand (bytesMsbFirst n w))
  | .error _ => .command (padCommand (bytesLsbFirst n w))

/-- The one-byte word `w` with the zero bytes its instruction has behind it. Rows of different spaces claim one byte
(log 20): `XFER_OP` is taken as XFER, 0x1A as PRINT_AND_FEED, 0x01 to 0x03 as the operation words DECODE, PARSE and
CLASSIFY, every other byte as a token. -/
def tableByte (p : Format) (w : Nat) : Code :=
  if w = p.xferOp.toNat then .packet (BitVec.ofNat 8 w :: List.replicate p.lenBytes 0x00#8)
  else if w = 0x1A then .command [0x1A#8]
  else if w = 1 ∨ w = 2 ∨ w = 3 then .op (BitVec.ofNat 18 w)
  else if w < 0x80 then .token (BitVec.ofNat 8 w :: List.replicate (w + 1) 0x00#8)
  else if w = 0x80 then .token [0x80#8]
  else .token [BitVec.ofNat 8 w, 0x00#8]

/-- The code a word of spec/opcode_table.json stands for: a byte as `tableByte` says; up to 24 bits with the value
below 2^18 an operation word (R50); anything else a wire command. -/
def tableCode (p : Format) (nbits w : Nat) : Code :=
  if nbits ≤ 8 then tableByte p (w % 256)
  else if 18 ≤ nbits ∧ nbits ≤ 24 ∧ w < 2 ^ 18 then .op (BitVec.ofNat 18 w)
  else tableCommand ((nbits + 7) / 8) w

/-- The instruction the decoder reads from a word of the opcode table, in the source's format. -/
def decodeTableWord (nbits w : Nat) : Option Instr :=
  match decode Format.source (tableCode Format.source nbits w) with
  | .ok (i, _) => some i
  | .error _ => none

end Sys2Proof
end

