-- ==== Sys2Proof/Machine/State.lean ====
section
/-! DEFINITION. The state of the block and of the host's side beside it, and the state after reset. -/

namespace Sys2Proof.Machine

open Sys2Proof

/-! ## The byte spaces -/

/-- 10_state.md R20: a byte space is its bytes with their offsets, from 0 up. An offset that is not listed does not
exist: there is no value there (log 3). -/
abbrev Memory := List Host.Cell

/-- The one canonical form: the offsets are 0, 1, 2, ... in order (R20, R37), so equal spaces are equal lists. -/
abbrev Memory.wf (m : Memory) : Prop := m.map Prod.fst = List.range m.length

/-! ## Results -/

/-- The cause codes of 60_exceptions.md R151. -/
inductive Cause where
  | ok | unexpectedOpcode | lengthOverrun | headerTruncated | payloadMalformed | lineLength | wrongLength | partialLine
  deriving DecidableEq, Repr

/-- R15: `RESULT`. -/
structure Result where
  code : Cause
  pos : Nat
  aux : Nat
  deriving DecidableEq, Repr

/-- R16: the record `SF` holds when it is not empty. -/
structure StatusFrame where
  headerMismatch : Bool
  battery : Byte
  batteryKnown : Bool
  extError : Byte
  error1 : Byte
  error2 : Byte
  mediaWidth : Byte
  mediaType : Byte
  mediaLength : Byte
  statusType : Byte
  statusTypeKnown : Bool
  phaseType : Byte
  notification : Byte
  errClass : ErrClass
  deriving DecidableEq, Repr

/-- R18: the record `CLASS` holds when it is not empty. -/
structure ClassRecord where
  code : ErrClass
  e1 : Byte
  e2 : Byte
  deriving DecidableEq, Repr

/-- R22 "operation in progress". An operation is one step, so between steps the block is `idle`, unless a DECODE is
being observed (log 1): at a packet boundary, where `tokens` says that payloads are to be observed token by token, or
inside a payload. -/
inductive Activity where
  | idle
  | packet (tokens : Bool)
  | payload
  deriving DecidableEq, Repr

/-! ## The host's side (44_wire_command_context.md) -/

/-- R139: the sequencer's states. -/
inductive Stage where
  | idle | initializing | queryingStatus | flushingBuffer | reinitializing | settingGraphicsMode | settingMediaFormat
  | applyingConfig | sendingCompressionMode | streamingData | printAndFeed | awaitingFinalStatus | closed | failed
  deriving DecidableEq, Repr

/-- The steps of a print job, R138. -/
inductive JobStep where
  | enterRaster | initPrinter | queryStatus | flush | setMediaFormat | setExpandedMode | setModeFlags | setMargin
  | setCompression | transfer | printAndFeed | readStatus
  deriving DecidableEq, Repr

/-- R139, R157: the I/O errors of the transport, "open/write/read/timeout failures". -/
inductive IoError where
  /-- R157: the channel does not open -/
  | openFailed
  /-- R142: "`connect` fails with a "service not found" error" -/
  | serviceNotFound
  | writeFailed | readFailed | timeout
  deriving DecidableEq, Repr

/-- R140, R142: what a write meets. -/
inductive Link where
  /-- it succeeds -/
  | up
  /-- the device's flow control holds it back for longer than the timeout (R140) -/
  | stalled
  /-- the transport is closed or has broken down: every write and every read is an I/O error -/
  | down
  deriving DecidableEq, Repr

/-- R142: what arrives from the transport. -/
inductive Reply where
  /-- bytes of the stream, which `read_exact` cuts as it needs them -/
  | data (bs : List Byte)
  /-- a read that hands over what it has, of any length: the wrong-length reply that `read_exact`'s contract leaves
  unexplained (R142, 90_conflicts.md C7) and that 93_implementation_defined.md U10 asks for -/
  | whole (bs : List Byte)
  | ioError
  deriving DecidableEq, Repr

/-- R142: the two variants of the transport, and how opening one goes: whether the channel opens, and for the Bluetooth
variant which service lookups find the device, in order; a lookup that is not listed finds nothing (log 26). -/
inductive Channel where
  | serial (opens : Bool)
  | bluetooth (lookups : List Bool) (opens : Bool)
  deriving DecidableEq, Repr

/-- R138 steps 3 and 11, R109: how far a status of the job is. -/
inductive ReplyStatus where
  /-- no reply was read yet -/
  | awaited
  /-- the reply was read and not decoded -/
  | read (raw : List Byte)
  /-- what PARSE made of it: a frame, or none after WrongLength -/
  | decoded (frame : Option StatusFrame)
  deriving DecidableEq, Repr

/-- R109: what the host's log says of a status (log 35). -/
inductive LogEntry where
  /-- R101, R109 "decode issues": the reply had this length -/
  | wrongLength (len : Nat)
  /-- R19, R102: the "mismatch is non-fatal but logged" -/
  | headerMismatch
  /-- R109, R157: a device error, "never silently swallowed", with its class and raw bytes -/
  | deviceError (cls : ErrClass) (e1 e2 : Byte)
  deriving DecidableEq, Repr

/-- The job's state, R138 to R142: no state of the block (R19), held beside it (log 12). -/
structure Job where
  /-- R139 -/
  stage : Stage
  /-- how many steps of the order of R138 are done (log 13) -/
  cursor : Nat
  /-- R139: "the originating I/O error with the state at which it occurred" -/
  failure : Option (Stage × IoError)
  /-- R140: a command left the order of R138 (log 14) -/
  reordered : Bool
  /-- R130: the operand bytes of the last SET_MEDIA_FORMAT -/
  media : Option (List Byte)
  /-- R131, R176 (c): a TRANSFER did not send as many packets as SET_MEDIA_FORMAT announced (log 33) -/
  miscounted : Bool
  /-- R138 step 3, the status asked for by the last QUERY_STATUS -/
  query : ReplyStatus
  /-- R138 step 11, the final status -/
  final : ReplyStatus
  /-- R109: the host's log, oldest first -/
  log : List LogEntry
  /-- the bytes written to the transport, in order -/
  wire : List Byte
  /-- R142: what the last write returned, how many bytes it took; none before the first and after an I/O error -/
  written : Option Nat
  /-- what the next reads will meet, oldest first (log 15) -/
  inbox : List Reply
  /-- R142: what the next write or read meets (log 15) -/
  link : Link
  /-- R142: `name()` of the transport -/
  name : String
  deriving DecidableEq, Repr

/-- The moves of the world outside the block (log 2). -/
inductive Move where
  /-- R172: `IN` and its length are written -/
  | load (bs : List Byte)
  /-- R41: `OUT` is copied to `IN` -/
  | copyOut
  /-- R172: the configuration is set -/
  | configure (c : Settings)
  /-- R14: an operation word is presented -/
  | present (w : OpWord)
  /-- a DECODE is started for observation, packet by packet or token by token (log 1) -/
  | trace (tokens : Bool)
  /-- R125: a wire command is sent -/
  | command (bs : List Byte)
  /-- R136: `OUT` is written to the transport -/
  | transfer
  /-- R138 step 11: the final status reply is read into `IN` -/
  | readStatus
  /-- R138 steps 3 and 11, R109, R175: the job takes and logs what PARSE made of a status reply -/
  | collect
  /-- R16: `SF` is read -/
  | readSf
  /-- R18: `CLASS` is read -/
  | readClass
  /-- R139: a job is started from `Idle` -/
  | startJob
  /-- R142: the job's transport, of that name, is opened -/
  | openTransport (name : String) (channel : Channel)
  /-- R140, R142: the transport's link changes; `down` is also the caller's close -/
  | link (l : Link)
  /-- R142: something arrives at the transport -/
  | deliver (r : Reply)
  /-- R142 `reset_input_buffer()`: what waits is dropped -/
  | resetInput
  /-- R170, R171: reset -/
  | reset
  deriving DecidableEq, Repr

/-! ## The machine -/

/-- Everything the spec gives the machine. -/
structure State where
  /-- R19: the configuration registers -/
  cfg : Config
  /-- R20: `IN` -/
  inp : Memory
  /-- R20: `OUT` -/
  out : Memory
  /-- R11: `LINE` -/
  line : List Byte
  /-- R13: `K` -/
  k : Nat
  /-- R12: `POS` -/
  pos : Nat
  /-- R89: `U`, what UNPACK has written (log 8) -/
  u : List Byte
  /-- R89: `q`, UNPACK's offset in the payload (log 8) -/
  q : Nat
  /-- R85: `n`, the payload's length (log 8) -/
  n : Nat
  /-- R15: `RESULT` -/
  result : Result
  /-- R16: `SF` -/
  sf : Option StatusFrame
  /-- R18: `CLASS` -/
  cls : Option ClassRecord
  /-- R22: the operation in progress -/
  activity : Activity
  /-- the model's own: an operation was presented since reset, so the configuration is fixed (R19, log 9) -/
  started : Bool
  /-- the model's own: how many free values were drawn (log 7) -/
  fresh : Nat
  /-- the moves of the outside still to come, oldest first (log 2) -/
  host : List Move
  /-- the print job (log 12) -/
  job : Job
  deriving DecidableEq, Repr

/-- A job that has not begun: R139 "Idle". DESIGN CHOICE for the rest (logs 12 to 15), unsafe. -/
def Job.atIdle : Job where
  stage := .idle
  cursor := 0
  failure := none
  reordered := false
  media := none
  miscounted := false
  query := .awaited
  final := .awaited
  log := []
  wire := []
  written := none
  inbox := []
  link := .up
  name := ""

/-- R22, R170: the machine after reset. `RESULT`, `SF`, `CLASS`, `OUT` and idle are the spec's; `IN` (log 4), `LINE`,
`K`, `POS` (log 5), the configuration (log 6) and the rest are DESIGN CHOICE, unsafe. -/
def State.reset : State where
  cfg := Config.atReset
  inp := []
  out := []
  line := List.replicate 16 0x00#8
  k := 0
  pos := 0
  u := []
  q := 0
  n := 0
  result := ⟨.ok, 0, 0⟩
  sf := none
  cls := none
  activity := .idle
  started := false
  fresh := 0
  host := []
  job := Job.atIdle

/-! ## Stops -/

/-- Where the machine stops because the spec says a read has no value. -/
inductive Fault where
  /-- raised by the host's move `readSf` while `SF` is empty (93_implementation_defined.md U12); safe -/
  | sfEmpty
  /-- raised by the host's move `readClass` while `CLASS` is empty (U12); safe -/
  | classEmpty
  deriving DecidableEq, Repr

/-- Where the spec gives no meaning and no move. -/
inductive Refusal where
  /-- raised by an arm of `exec` whose instruction has no meaning yet; safe; no arm is left so -/
  | notModelled (mnemonic : String)
  /-- raised by ENCODE, DECODE and XFER when `OUT` cannot hold the output (U5); safe -/
  | outputTooLong
  /-- raised by the host's moves that write `IN`, and by QUERY_STATUS, when the bytes exceed `MAX_BYTES` (U5, R177); safe -/
  | inputTooLong
  /-- raised by the move `configure` outside the bounds of R172; safe -/
  | badConfiguration
  /-- raised by the move `configure` once an operation was presented (R19, D18); safe -/
  | configurationFixed
  /-- raised by the move `command` for bytes that are no command of 30_encoding.md R61; safe -/
  | notACommand (bs : List Byte)
  deriving DecidableEq, Repr

end Sys2Proof.Machine
end

