-- ==== Sys2Proof/Machine/Ops.lean ====
section
/-! DEFINITION. The named operations over the byte spaces and the registers, and the end of an operation: an error
(60_exceptions.md) or a success. -/

namespace Sys2Proof.Machine

open Sys2Proof

/-- What one step answers. -/
abbrev Answer := Host.Outcome State Fault Refusal

/-! ## The byte spaces (00_scope.md R9, 10_state.md R20) -/

/-- The space whose bytes are `bs`, from offset 0. -/
def Memory.ofBytes (bs : List Byte) : Memory := (List.range bs.length).zip bs

/-- The bytes of a space, in order. -/
def Memory.bytes (m : Memory) : List Byte := m.map Prod.snd

/-- One byte of a space; none where the offset does not exist (R38). -/
def Memory.read : Memory → Nat → Option Byte
  | [], _ => none
  | c :: m, a => if c.1 = a then some c.2 else Memory.read m a

/-- R9: `MemRead(S, addr, n)`. -/
def memRead (m : Memory) (addr n : Nat) : List Byte := (m.bytes.drop addr).take n

/-- R9: `MemWrite(S, addr, n, v)`, `n` the length of `v`; no operation uses it, as the block only appends (R20). -/
def memWrite (m : Memory) (addr : Nat) (v : List Byte) : Memory :=
  Memory.ofBytes (m.bytes.take addr ++ v ++ m.bytes.drop (addr + v.length))

/-- R9: `Append(S, v)`. -/
def memAppend (m : Memory) (v : List Byte) : Memory := Memory.ofBytes (m.bytes ++ v)

/-! ## Free values (93_implementation_defined.md U8) -/

/-- The `L` free bytes of one draw. -/
def freeLine (len draw : Nat) : List Byte := (List.range len).map (Config.freeByte draw)

/-- R11, R13, U8: `LINE` and `K` hold any value once the operation that used them is over (log 7). -/
def forgetLine (s : State) : State :=
  { s with line := freeLine s.cfg.L s.fresh, k := Config.freeNat s.fresh, fresh := s.fresh + 1 }

/-- R12, U8: `POS` holds any value once a DECODE is over (log 7). -/
def forgetCursor (s : State) : State :=
  { s with pos := Config.freeNat s.fresh, fresh := s.fresh + 1 }

/-! ## The end of an operation -/

/-- R15, R39 (c): an operation ends with the write of `RESULT`, and the block is idle again. -/
def finish (r : Result) (s : State) : State :=
  { s with result := r, activity := .idle, u := [], q := 0, n := 0 }

/-- R9 `raise`, R150, R155: what EVERY error does. `RESULT` gets the cause, `OUT` is emptied, the block is idle. Nothing
is saved, no mode changes and control goes nowhere, so there is no return beside it (R156). -/
def raise (c : Cause) (pos aux : Nat) (s : State) : State :=
  finish ⟨c, pos, aux⟩ { s with out := [] }

/-- The result of an operation that succeeds, R15. -/
def Result.success : Result := ⟨.ok, 0, 0⟩

/-- R85, R91: an error of DECODE; `RESULT.POS` is the opcode offset of the offending packet. -/
def raiseFraming (c : Cause) (pos aux : Nat) (s : State) : State :=
  forgetCursor (forgetLine (raise c pos aux s))

/-- R85: the success of DECODE, `OUT` holding its lines. -/
def endDecode (s : State) : State :=
  forgetCursor (forgetLine (finish Result.success s))

/-- R85: `OUT <- [] ; POS <- 0 ; K <- 0`, a DECODE in progress at the first packet boundary. -/
def startDecode (tokens : Bool) (s : State) : State :=
  { s with out := [], pos := 0, k := 0, u := [], q := 0, n := 0, activity := .packet tokens }

end Sys2Proof.Machine
end

