-- ==== Sys2Proof/Machine/Operands.lean ====
section
/-! DEFINITION. The operand forms: raster lines, the runs and literals of PACK, tokens and UNPACK, the packet's line,
and the bytes of the status frame. -/

namespace Sys2Proof.Machine

open Sys2Proof

/-! ## Raster lines (20_memory.md R31, 40_encode.md R72) -/

/-- R31: the raster-line count `len(IN) div L`. -/
def lineCount (c : Config) (len : Nat) : Nat := len / c.L

/-- R72: raster line `k` is `MemRead(IN, k * L, L)`. -/
def rasterLine (c : Config) (m : Memory) (k : Nat) : List Byte := memRead m (k * c.L) c.L

/-! ## PACK (R76) -/

/-- How many bytes in front equal `b`, at most `cap`. -/
def runLength (b : Byte) : Nat → List Byte → Nat
  | 0, _ => 0
  | _ + 1, [] => 0
  | cap + 1, x :: xs => if x = b then runLength b cap xs + 1 else 0

/-- How many bytes in front a literal group still takes, at most `cap`: it stops before a byte followed by an equal one. -/
def literalLength : Nat → List Byte → Nat
  | 0, _ => 0
  | _ + 1, [] => 0
  | _ + 1, [_] => 1
  | cap + 1, x :: y :: ys => if x = y then 0 else literalLength cap (y :: ys) + 1

/-- R76's outer loop; every token takes a byte at least, so `fuel` need not exceed the line's length. -/
def packFrom : Nat → List Byte → List Byte
  | 0, _ => []
  | _ + 1, [] => []
  | fuel + 1, b :: tl =>
    if 1 ≤ runLength b 127 tl then
      emitRep (runLength b 127 tl + 1) b ++ packFrom fuel (tl.drop (runLength b 127 tl))
    else
      emitLit (b :: tl.take (literalLength 127 tl)) ++ packFrom fuel (tl.drop (literalLength 127 tl))

/-- R76: `PACK(LINE)`. -/
def pack (line : List Byte) : List Byte := packFrom line.length line

/-! ## Tokens and UNPACK (41_decode.md R89) -/

/-- R89's loop at offset `q` with the bytes `u` written; the error is the offset of the incomplete token. -/
def unpackFrom : Nat → List Byte → Nat → List Byte → Except Nat (List Byte)
  | 0, _, _, u => .ok u
  | fuel + 1, p, q, u =>
    match readToken p with
    | .exhausted => .ok u
    | .truncated => .error q
    | .literal data rest => unpackFrom fuel rest (q + 1 + data.length) (u ++ data)
    | .run count b rest => unpackFrom fuel rest (q + 2) (u ++ List.replicate count b)
    | .skip rest => unpackFrom fuel rest (q + 1) u

/-- R89: `UNPACK(P)`. -/
def unpack (p : List Byte) : Except Nat (List Byte) := unpackFrom p.length p 0 []

/-- R89: what a token does, `U` grows by its output and `q` by its length. -/
def tokenEffect (output : List Byte) (length : Nat) (s : State) : State :=
  { s with u := s.u ++ output, q := s.q + length }

/-! ## The line of a packet (R85, R88) -/

/-- What the payload of a packet comes to. -/
inductive LineRead where
  | malformed (q : Nat)
  | wrongLength (len : Nat)
  | overflow
  | line (u : List Byte)
  deriving DecidableEq, Repr

/-- R88: the unpacked payload must be exactly `L` bytes; U5: `OUT`, which holds `held` bytes, must have room for it. -/
def checkLine (c : Config) (held : Nat) (u : List Byte) : LineRead :=
  if u.length ≠ c.L then .wrongLength u.length
  else if c.maxBytes < held + c.L then .overflow
  else .line u

/-- R90: every token complete, then the length. -/
def readLine (c : Config) (held : Nat) (payload : List Byte) : LineRead :=
  match unpack payload with
  | .error q => .malformed q
  | .ok u => checkLine c held u

/-- R85, R88: a line is copied to `LINE`, appended to `OUT` and counted, and the cursor moves behind the packet. -/
def acceptLine (line : List Byte) (n : Nat) (s : State) : State :=
  { s with line := line, out := memAppend s.out line, k := s.k + 1, pos := s.pos + s.cfg.headerLen + n }

/-- R85, R91: what a packet whose payload of `n` bytes came to `r` does to a DECODE. -/
def packetEffect (n : Nat) (r : LineRead) (s : State) : Answer :=
  match r with
  | .malformed q => .next (raiseFraming .payloadMalformed s.pos q s)
  | .wrongLength len => .next (raiseFraming .lineLength s.pos len s)
  | .overflow => .refused .outputTooLong
  | .line u => .next (acceptLine u n s)

/-! ## The status frame (42_status_parse.md R103, 30_encoding.md R58) -/

/-- `raw[i]` of a frame that is long enough. -/
def frameByte (raw : List Byte) (i : Nat) : Byte := raw.getD i 0x00#8

end Sys2Proof.Machine
end

