-- ==== Sys2Proof/Machine/Flags.lean ====
section
/-! DEFINITION. Every flag and code the block computes: the classification (43_error_classify.md R116), the three flags
of SF (10_state.md R17) and the numbers of the codes. -/

namespace Sys2Proof.Machine

open Sys2Proof

/-- R117: a flag matches when the byte ANDed with its mask is not zero; the first match of the table wins. -/
def firstFlag (table : List (Byte × ErrClass)) (e : Byte) : Option ErrClass :=
  match table with
  | [] => none
  | (mask, cls) :: rest => if e &&& mask ≠ 0#8 then some cls else firstFlag rest e

/-- R116: `CLASSIFY_FN(e1, e2)`, error byte 1 before error byte 2, `Unknown` when nothing matches (R119). -/
def classifyFn (c : Config) (e1 e2 : Byte) : ErrClass :=
  match firstFlag c.e1Flags e1 with
  | some cls => cls
  | none =>
    match firstFlag c.e2Flags e2 with
    | some cls => cls
    | none => .unknown

/-- R102: `SF.HEADER_MISMATCH`, the first eight bytes compared as a whole with `MAGIC`. -/
def headersDiffer (c : Config) (raw : List Byte) : Bool := raw.take c.magicLen != c.magic

/-- R104: `SF.STATUS_TYPE_KNOWN`. -/
def isKnownStatusType (c : Config) (b : Byte) : Bool := (c.statusTypeKnown.map Prod.fst).contains b

/-- R105: `SF.BATTERY_KNOWN`. -/
def isKnownBattery (c : Config) (b : Byte) : Bool := (c.batteryKnown.map Prod.fst).contains b

/-- R18: the class codes, 4 bits. -/
def classCode : ErrClass → BitVec 4
  | .unknown => 0
  | .noMedia => 1
  | .endOfMedia => 2
  | .tapeCutJam => 3
  | .replaceMedia => 4
  | .bufferFull => 5
  | .transmissionError => 6
  | .transmissionBufferFull => 7
  | .coverOpen => 8

/-- R151: the cause codes, 3 bits. -/
def causeCode : Cause → BitVec 3
  | .ok => 0
  | .unexpectedOpcode => 1
  | .lengthOverrun => 2
  | .headerTruncated => 3
  | .payloadMalformed => 4
  | .lineLength => 5
  | .wrongLength => 6
  | .partialLine => 7

/-- R151: "Codes 1 to 5 are the one error kind the source calls FramingError". -/
def isFramingError : Cause → Bool
  | .ok => false
  | .unexpectedOpcode => true
  | .lengthOverrun => true
  | .headerTruncated => true
  | .payloadMalformed => true
  | .lineLength => true
  | .wrongLength => false
  | .partialLine => false

end Sys2Proof.Machine
end

