-- ==== Sys2Proof/Machine/Codec.lean ====
section
/-! DEFINITION. The codec's instructions: ENCODE (40_encode.md), DECODE (41_decode.md), and the stream instructions a
DECODE consists of: XFER and ILLEGAL_STREAM_OPCODE at a packet boundary, LIT, REP and NOP in a payload. -/

namespace Sys2Proof.Machine

open Sys2Proof

/-! ## ENCODE -/

/-- R70, R72, R74: the packets of the raster lines of `IN`, one a line, in line order. -/
def encodeStream (c : Config) (m : Memory) : List Byte :=
  (List.range (lineCount c m.length)).flatMap fun k => wrapPacket c.toFormat (pack (rasterLine c m k))

/-- ENCODE, R70; `PartialLine` before anything is emitted (R71); an output beyond `MAX_BYTES` has no meaning (R79, U5). -/
def execEncode (s : State) : Answer :=
  if s.inp.length % s.cfg.L ≠ 0 then
    .next (forgetLine
      (raise .partialLine (lineCount s.cfg s.inp.length * s.cfg.L) (s.inp.length % s.cfg.L) s))
  else if s.cfg.maxBytes < (encodeStream s.cfg s.inp).length then .refused .outputTooLong
  else .next (forgetLine (finish Result.success { s with out := Memory.ofBytes (encodeStream s.cfg s.inp) }))

/-! ## DECODE -/

/-- How a walk through a packet stream ends. -/
inductive StreamEnd where
  | done (out : List Byte)
  | error (c : Cause) (pos aux : Nat)
  | overflow
  deriving DecidableEq, Repr

/-- R85's loop: the stream left is `bs`, from offset `pos`, and `out` is what was appended. The checks of a packet in
the order of R90; every packet takes a byte at least, so `fuel` need not exceed the stream's length. -/
def decodeFrom (c : Config) : Nat → List Byte → Nat → List Byte → StreamEnd
  | 0, _, _, out => .done out
  | fuel + 1, bs, pos, out =>
    match readPacket c.toFormat bs with
    | .exhausted => .done out
    | .illegal b => .error .unexpectedOpcode pos b.toNat
    | .truncated left => .error .headerTruncated pos left
    | .overrun n => .error .lengthOverrun pos n
    | .packet payload rest =>
      match readLine c out.length payload with
      | .malformed q => .error .payloadMalformed pos q
      | .wrongLength len => .error .lineLength pos len
      | .overflow => .overflow
      | .line u => decodeFrom c fuel rest (pos + c.headerLen + payload.length) (out ++ u)

/-- R85: the whole stream `bs`. -/
def decodeStream (c : Config) (bs : List Byte) : StreamEnd := decodeFrom c bs.length bs 0 []

/-- DECODE, R85: all lines or, on the first malformed packet, none (R90, R91). -/
def execDecode (s : State) : Answer :=
  match decodeStream s.cfg s.inp.bytes with
  | .done out => .next (endDecode { s with out := Memory.ofBytes out })
  | .error c pos aux => .next (raiseFraming c pos aux s)
  | .overflow => .refused .outputTooLong

/-! ## The packet stream -/

/-- XFER, R85 to R88: the payload is unpacked, checked, and its line appended. -/
def execXfer (payload : List Byte) (s : State) : Answer :=
  packetEffect payload.length (readLine s.cfg s.out.length payload) s

/-- ILLEGAL_STREAM_OPCODE, R57, R86: `UnexpectedOpcode` with the byte found. -/
def execIllegalStreamOpcode (b : Byte) (s : State) : Answer :=
  .next (raiseFraming .unexpectedOpcode s.pos b.toNat s)

/-! ## The tokens (R89) -/

/-- LIT: the bytes are copied, `q <- q + 1 + m`. -/
def execLit (data : List Byte) (s : State) : Answer :=
  .next (tokenEffect data (1 + data.length) s)

/-- REP: `count` copies of the byte, `q <- q + 2`. -/
def execRep (count : Nat) (b : Byte) (s : State) : Answer :=
  .next (tokenEffect (List.replicate count b) 2 s)

/-- NOP: nothing is output, `q <- q + 1`. -/
def execNop (s : State) : Answer :=
  .next (tokenEffect [] 1 s)

end Sys2Proof.Machine
end

