-- ==== Sys2Proof/Machine/Frame.lean ====
section
/-! DEFINITION. The frame decoder's instructions: PARSE (42_status_parse.md) and CLASSIFY (43_error_classify.md). -/

namespace Sys2Proof.Machine

open Sys2Proof

/-- R100, R102 to R107: the record of a frame of `FRAME_LEN` bytes. -/
def parseFrame (c : Config) (raw : List Byte) : StatusFrame where
  headerMismatch := headersDiffer c raw
  battery := frameByte raw c.offBattery
  batteryKnown := isKnownBattery c (frameByte raw c.offBattery)
  extError := frameByte raw c.offExtError
  error1 := frameByte raw c.offError1
  error2 := frameByte raw c.offError2
  mediaWidth := frameByte raw c.offMediaWidth
  mediaType := frameByte raw c.offMediaType
  mediaLength := frameByte raw c.offMediaLength
  statusType := frameByte raw c.offStatusType
  statusTypeKnown := isKnownStatusType c (frameByte raw c.offStatusType)
  phaseType := frameByte raw c.offPhaseType
  notification := frameByte raw c.offNotification
  errClass := classifyFn c (frameByte raw c.offError1) (frameByte raw c.offError2)

/-- PARSE, R100: a full record, or `WrongLength` and no frame (R101). -/
def execParse (s : State) : Answer :=
  if s.inp.length ≠ s.cfg.frameLen then
    .next (raise .wrongLength 0 s.inp.length { s with sf := none })
  else
    .next (finish Result.success { s with out := [], sf := some (parseFrame s.cfg (memRead s.inp 0 s.cfg.frameLen)) })

/-- CLASSIFY, R115. -/
def execClassify (e1 e2 : Byte) (s : State) : Answer :=
  .next (finish Result.success { s with out := [], cls := some ⟨classifyFn s.cfg e1 e2, e1, e2⟩ })

end Sys2Proof.Machine
end

