-- ==== Sys2Proof/Machine/Wire.lean ====
section
/-! DEFINITION. The host's ten wire commands (44_wire_command_context.md): what each writes to the transport and where
the print job then stands. The printer's inside is no part of the spec (00_scope.md R4). -/

namespace Sys2Proof.Machine

open Sys2Proof

/-! ## The sequencer (R138, R139) -/

/-- R138: the steps of a job in order, each with the state of R139 it belongs to. DEDUCED (log 13), unsafe. -/
def jobOrder : List (JobStep × Stage) :=
  [(.enterRaster, .initializing), (.initPrinter, .initializing), (.queryStatus, .queryingStatus),
   (.flush, .flushingBuffer), (.initPrinter, .reinitializing), (.enterRaster, .settingGraphicsMode),
   (.setMediaFormat, .settingMediaFormat), (.setExpandedMode, .applyingConfig), (.setModeFlags, .applyingConfig),
   (.setMargin, .applyingConfig), (.setCompression, .sendingCompressionMode), (.transfer, .streamingData),
   (.printAndFeed, .printAndFeed), (.readStatus, .awaitingFinalStatus), (.initPrinter, .closed)]

/-- The step a job is to do next. -/
def expectedStep (cursor : Nat) : Option JobStep := (jobOrder[cursor]?).map Prod.fst

/-- The state of a job that has done `cursor` steps. -/
def stageAt : Nat → Stage
  | 0 => .idle
  | n + 1 => ((jobOrder[n]?).map Prod.snd).getD .closed

/-- R139: "Terminal states: `Closed` (success) or `Failed`"; the transport "is closed on every exit path". -/
def jobOver (j : Job) : Bool := j.stage == .closed || j.stage == .failed

/-- The state in which a step is done. -/
def stageOf (step : JobStep) (j : Job) : Stage :=
  if expectedStep j.cursor = some step then stageAt (j.cursor + 1) else j.stage

/-- R138, R140: the job moves on with the step that is next in the order, and the last one releases the transport (R138
step 12, R139); any other step breaks the order (log 14). -/
def advance (step : JobStep) (j : Job) : Job :=
  if expectedStep j.cursor = some step then
    { j with
      cursor := j.cursor + 1, stage := stageAt (j.cursor + 1)
      link := if stageAt (j.cursor + 1) = .closed then .down else j.link }
  else { j with reordered := true }

/-- What the world does to the transport and to the block goes on whatever becomes of a job. -/
def isEvent : Move → Bool
  | .load _ => false
  | .copyOut => false
  | .configure _ => false
  | .present _ => false
  | .trace _ => false
  | .command _ => false
  | .transfer => false
  | .readStatus => false
  | .collect => false
  | .readSf => false
  | .readClass => false
  | .startJob => false
  | .openTransport _ _ => false
  | .link _ => true
  | .deliver _ => true
  | .resetInput => false
  | .reset => true

/-- R139: an I/O error "aborts the sequence immediately": of the moves to come those of the job are dropped, which are
all up to the next start of a job but the world's own (log 34). -/
def abortSequence : List Move → List Move
  | [] => []
  | m :: rest => if m = .startJob then m :: rest else if isEvent m then m :: abortSequence rest else abortSequence rest

/-- R139: an I/O error "aborts the sequence immediately, transitions to `Failed`, and surfaces the originating I/O error
with the state at which it occurred"; the transport "is closed on every exit path". -/
def failJob (at_ : Stage) (e : IoError) (s : State) : State :=
  { s with
    host := abortSequence s.host
    job := { s.job with stage := .failed, failure := some (at_, e), link := .down } }

/-- R142 `write`: the bytes go to the transport, and their number comes back. -/
def writeAll (bs : List Byte) (j : Job) : Job := { j with wire := j.wire ++ bs, written := some bs.length }

/-- A write that fails: the bytes that still reached the printer are a free prefix (log 15), and no number comes back. -/
def writePart (bs : List Byte) (s : State) : State :=
  { s with
    job := { s.job with wire := s.job.wire ++ bs.take (Config.freeNat s.fresh % (bs.length + 1)), written := none }
    fresh := s.fresh + 1 }

/-- R140, R142: the bytes of a step are written. Behind a stalled link the write times out, on one that is down it
fails; where the job is over the transport is closed and nothing is written (log 16). -/
def sendBytes (step : JobStep) (bs : List Byte) (s : State) : State :=
  if jobOver s.job then s
  else
    match s.job.link with
    | .up => { s with job := advance step (writeAll bs s.job) }
    | .stalled => failJob (stageOf step s.job) .timeout (writePart bs s)
    | .down => failJob (stageOf step s.job) .writeFailed (writePart bs s)

/-- What `read_exact` comes to, and what then still waits. -/
inductive ReadResult where
  | done (bs : List Byte) (rest : List Reply)
  | failed (rest : List Reply)
  | timedOut
  deriving DecidableEq, Repr

/-- The bytes a read leaves of what arrived. -/
def putBack (bs : List Byte) (rest : List Reply) : List Reply := if bs = [] then rest else .data bs :: rest

/-- R142 `read_exact(n)`: `n` more bytes behind those in `acc`, or an I/O error (log 15). -/
def readExact (n : Nat) (acc : List Byte) : List Reply → ReadResult
  | [] => if n = 0 then .done acc [] else .timedOut
  | .data bs :: rest =>
    if n ≤ bs.length then .done (acc ++ bs.take n) (putBack (bs.drop n) rest)
    else readExact (n - bs.length) (acc ++ bs) rest
  | .whole bs :: rest => .done (acc ++ bs) rest
  | .ioError :: rest => .failed rest

/-- R142: the read of a status reply, `FRAME_LEN` bytes (R128, R138). -/
def readReply (s : State) : ReadResult :=
  match s.job.link with
  | .up => readExact s.cfg.frameLen [] s.job.inbox
  | .stalled => readExact s.cfg.frameLen [] s.job.inbox
  | .down => .failed s.job.inbox

/-- R128, R138: the reply that was read becomes `IN`, where PARSE finds it (log 17); without one the job fails (R139,
R140). -/
def receiveReply (s : State) : Answer :=
  match readReply s with
  | .timedOut => .next (failJob s.job.stage .timeout { s with job := { s.job with inbox := [] } })
  | .failed rest => .next (failJob s.job.stage .readFailed { s with job := { s.job with inbox := rest } })
  | .done bs rest =>
    if s.cfg.maxBytes < bs.length then .refused .inputTooLong
    else .next { s with inp := Memory.ofBytes bs, job := { s.job with inbox := rest } }

/-- The bytes that were read wait in the job for what PARSE makes of them; a job that failed keeps none. -/
def keepReply (keep : ReplyStatus → Job → Job) (a : Answer) : Answer :=
  match a with
  | .next t => if jobOver t.job then .next t else .next { t with job := keep (.read t.inp.bytes) t.job }
  | .fault f => .fault f
  | .refused r => .refused r

/-- R138 step 3. -/
def keepQuery (r : ReplyStatus) (j : Job) : Job := { j with query := r }

/-- R138 step 11. -/
def keepFinal (r : ReplyStatus) (j : Job) : Job := { j with final := r }

/-! ## The media format (R130, R131) -/

/-- R130: the place of the raster-line count among the operand bytes, behind the four items listed before it. -/
def lineCountOffset : Nat := Config.mediaFlagCount + Config.tapeWidthCount + Config.labelLengthCount

/-- R130: the raster-line count that some operand bytes carry, "little-endian 2 bytes". -/
def announcedLines (flags : List Byte) : Option Nat :=
  match flags.drop lineCountOffset with
  | lo :: hi :: _ => some (le16 lo hi)
  | [_] => none
  | [] => none

/-- How many packets a stream holds, up to where no whole packet stands. -/
def packetCount (p : Format) : Nat → List Byte → Nat
  | 0, _ => 0
  | fuel + 1, bs =>
    match readPacket p bs with
    | .exhausted => 0
    | .illegal _ => 0
    | .truncated _ => 0
    | .overrun _ => 0
    | .packet _ rest => packetCount p fuel rest + 1

/-- R131, R176 (c): whether the packets of `OUT` are as many as SET_MEDIA_FORMAT announced. -/
def countAgrees (s : State) : Bool :=
  (s.job.media.bind announcedLines) == some (packetCount s.cfg.toFormat s.out.length s.out.bytes)

/-- TRANSFER, R136: `OUT` is written unchanged, whatever it holds: the stream of the last ENCODE, nothing after an
error, and what another operation left there. DESIGN CHOICE for what no ENCODE made (log 36), unsafe. A count that
disagrees is recorded (R131). -/
def transferStream (s : State) : State :=
  if jobOver s.job then s
  else
    sendBytes .transfer s.out.bytes
      { s with job := { s.job with miscounted := s.job.miscounted || !countAgrees s } }

/-! ## The commands -/

/-- ENTER_RASTER, R126. -/
def execEnterRaster (mode : Byte) (s : State) : Answer :=
  .next (sendBytes .enterRaster (commandBytes (.enterRaster mode)) s)

/-- INITIALIZE, R127. -/
def execInitPrinter (s : State) : Answer :=
  .next (sendBytes .initPrinter (commandBytes .initPrinter) s)

/-- QUERY_STATUS, R128: the command is written and the reply is read. -/
def execQueryStatus (s : State) : Answer :=
  if jobOver (sendBytes .queryStatus (commandBytes .queryStatus) s).job then
    .next (sendBytes .queryStatus (commandBytes .queryStatus) s)
  else keepReply keepQuery (receiveReply (sendBytes .queryStatus (commandBytes .queryStatus) s))

/-- FLUSH, R129. -/
def execFlush (count : Nat) (s : State) : Answer :=
  .next (sendBytes .flush (commandBytes (.flush count)) s)

/-- The operand bytes that were written stay with the job. -/
def rememberMedia (flags : List Byte) (s : State) : State :=
  if jobOver s.job then s else { s with job := { s.job with media := some flags } }

/-- SET_MEDIA_FORMAT, R130. -/
def execSetMediaFormat (flags : List Byte) (s : State) : Answer :=
  .next (rememberMedia flags (sendBytes .setMediaFormat (commandBytes (.setMediaFormat flags)) s))

/-- SET_MODE_FLAGS, R132. -/
def execSetModeFlags (flags : Byte) (s : State) : Answer :=
  .next (sendBytes .setModeFlags (commandBytes (.setModeFlags flags)) s)

/-- SET_EXPANDED_MODE, R133. -/
def execSetExpandedMode (flags : Byte) (s : State) : Answer :=
  .next (sendBytes .setExpandedMode (commandBytes (.setExpandedMode flags)) s)

/-- SET_MARGIN, R134. -/
def execSetMargin (lo hi : Byte) (s : State) : Answer :=
  .next (sendBytes .setMargin (commandBytes (.setMargin lo hi)) s)

/-- SET_COMPRESSION, R135. -/
def execSetCompression (s : State) : Answer :=
  .next (sendBytes .setCompression (commandBytes .setCompression) s)

/-- PRINT_AND_FEED, R137. -/
def execPrintAndFeed (s : State) : Answer :=
  .next (sendBytes .printAndFeed (commandBytes .printAndFeed) s)

end Sys2Proof.Machine
end

