-- ==== Sys2Proof/Machine/Dispatch.lean ====
section
/-! DEFINITION. One arm per instruction. -/

namespace Sys2Proof.Machine

open Sys2Proof

/-- The meaning of an instruction in a state. -/
def exec (i : Instr) (s : State) : Host.Outcome State Fault Refusal :=
  match i with
  | .encode => Sys2Proof.Machine.execEncode s
  | .decode => Sys2Proof.Machine.execDecode s
  | .parse => Sys2Proof.Machine.execParse s
  | .classify e1 e2 => Sys2Proof.Machine.execClassify e1 e2 s
  | .xfer payload => Sys2Proof.Machine.execXfer payload s
  | .lit data => Sys2Proof.Machine.execLit data s
  | .rep count b => Sys2Proof.Machine.execRep count b s
  | .nop => Sys2Proof.Machine.execNop s
  | .illegalStreamOpcode b => Sys2Proof.Machine.execIllegalStreamOpcode b s
  | .enterRaster mode => Sys2Proof.Machine.execEnterRaster mode s
  | .initPrinter => Sys2Proof.Machine.execInitPrinter s
  | .queryStatus => Sys2Proof.Machine.execQueryStatus s
  | .flush count => Sys2Proof.Machine.execFlush count s
  | .setMediaFormat flags => Sys2Proof.Machine.execSetMediaFormat flags s
  | .setModeFlags flags => Sys2Proof.Machine.execSetModeFlags flags s
  | .setExpandedMode flags => Sys2Proof.Machine.execSetExpandedMode flags s
  | .setMargin lo hi => Sys2Proof.Machine.execSetMargin lo hi s
  | .setCompression => Sys2Proof.Machine.execSetCompression s
  | .printAndFeed => Sys2Proof.Machine.execPrintAndFeed s

end Sys2Proof.Machine
end

