-- ==== Sys2Proof/Machine/HostSide.lean ====
section
/-! DEFINITION. The moves of the world outside the block that are no instruction, and what the host computes beside the
block: a print job's moves and its outcome, the transport's opening, pixels, texts. -/

namespace Sys2Proof.Machine

open Sys2Proof

/-! ## Moves -/

/-- R170, R171: reset. The block is as after power-on, an operation in progress is abandoned without a `RESULT`; the
host's side goes on (log 23). -/
def resetBlock (s : State) : State :=
  { State.reset with host := s.host, job := s.job, fresh := s.fresh }

/-- R172, D18, R19: the configuration is set before the first operation, within its bounds; what the source fixes stays
(log 11). -/
def setConfiguration (c : Settings) (s : State) : Answer :=
  if s.started then .refused .configurationFixed
  else if ¬ ({ s.cfg with toSettings := c } : Config).wf then .refused .badConfiguration
  else if c.maxBytes < s.inp.length ∨ c.maxBytes < s.out.length then .refused .inputTooLong
  else
    .next
      { s with cfg := { s.cfg with toSettings := c }, line := freeLine c.L s.fresh, fresh := s.fresh + 1 }

/-- R172, R177, U5: `IN` and its length are written, at most `MAX_BYTES` bytes. -/
def loadInput (bs : List Byte) (s : State) : Answer :=
  if s.cfg.maxBytes < bs.length then .refused .inputTooLong
  else .next { s with inp := Memory.ofBytes bs }

/-! ## The transport and the final status (R138, R142) -/

/-- R142: how often the service lookup is tried. -/
def lookupAttempts : Nat := 10

/-- R142: the Bluetooth connect succeeds when one of the first ten lookups finds the service (`lookups`, in order, says
which do); the answer is the attempt that did, counted from 0, and none is "service not found". -/
def connect (lookups : List Bool) : Option Nat := (lookups.take lookupAttempts).findIdx? (· = true)

/-- R142, R157: the error of opening a transport, none where it opens. Ten empty lookups are "service not found"; the
channel is opened only once the service is found. -/
def openError : Channel → Option IoError
  | .serial ok => if ok then none else some .openFailed
  | .bluetooth lookups ok =>
    match connect lookups with
    | none => some .serviceNotFound
    | some _ => if ok then none else some .openFailed

/-- R142: whether opening a transport succeeds. -/
def opens (ch : Channel) : Bool := (openError ch).isNone

/-- R142, R157: the job's transport is opened, or the job fails with the error of opening it (log 26). -/
def openTransport (name : String) (ch : Channel) (s : State) : State :=
  if jobOver s.job then s
  else
    match openError ch with
    | none => { s with job := { s.job with link := .up, name := name } }
    | some e => failJob s.job.stage e s

/-- R142 `name()`. -/
def transportName (s : State) : String := s.job.name

/-- R138 step 11: the final reply is read into `IN`. -/
def readFinalStatus (s : State) : Answer :=
  if jobOver s.job then .next s
  else keepReply keepFinal (receiveReply { s with job := advance .readStatus s.job })

/-- R100, R101: what `SF` is after PARSE of `raw`. -/
def parseReply (c : Config) (raw : List Byte) : Option StatusFrame :=
  if raw.length = c.frameLen then some (parseFrame c raw) else none

/-- R157 `DeviceError`: the class of a frame whose error bytes are not both zero. The source does not say when a frame
is an error (N11): DESIGN CHOICE (log 35), unsafe. -/
def deviceError (f : StatusFrame) : Option ErrClass :=
  if f.error1 = 0#8 ∧ f.error2 = 0#8 then none else some f.errClass

/-- R109, R102, R157: what is logged of a reply of `len` bytes that PARSE made `frame` of. -/
def statusEntries (len : Nat) (frame : Option StatusFrame) : List LogEntry :=
  match frame with
  | none => [.wrongLength len]
  | some f =>
    (if f.headerMismatch then [.headerMismatch] else []) ++
    match deviceError f with
    | none => []
    | some cls => [.deviceError cls f.error1 f.error2]

/-- R138, R175: `sf` is taken for the status, if it is what PARSE makes of the reply; an `SF` of another reply is not
taken (log 35). -/
def settle (c : Config) (sf : Option StatusFrame) (r : ReplyStatus) : ReplyStatus :=
  match r with
  | .awaited => r
  | .read raw => if sf = parseReply c raw then .decoded sf else r
  | .decoded _ => r

/-- R109: what `settle` gives the log. -/
def settleEntries (c : Config) (sf : Option StatusFrame) (r : ReplyStatus) : List LogEntry :=
  match r with
  | .awaited => []
  | .read raw => if sf = parseReply c raw then statusEntries raw.length sf else []
  | .decoded _ => []

/-- R138 steps 3 and 11, R109: the job takes `SF` for the status that waits for it, and logs it; nothing aborts the
job. -/
def collectStatus (s : State) : State :=
  { s with
    job :=
      { s.job with
        query := settle s.cfg s.sf s.job.query
        final := settle s.cfg s.sf s.job.final
        log := s.job.log ++ settleEntries s.cfg s.sf s.job.query ++ settleEntries s.cfg s.sf s.job.final } }

/-- What a move does; `s` has it taken off the list. Operation words and commands are instructions, which `fetch`
takes; they do not come here. -/
def hostMove (m : Move) (s : State) : Answer :=
  match m with
  | .load bs => loadInput bs s
  | .copyOut => loadInput s.out.bytes s
  | .configure c => setConfiguration c s
  | .present _ => .next s
  | .trace tokens => .next { startDecode tokens s with started := true }
  | .command _ => .next s
  | .transfer => .next (transferStream s)
  | .readStatus => readFinalStatus s
  | .collect => .next (collectStatus s)
  | .readSf => if s.sf = none then .fault .sfEmpty else .next s
  | .readClass => if s.cls = none then .fault .classEmpty else .next s
  | .startJob =>
    .next
      { s with
        job := { Job.atIdle with inbox := s.job.inbox, link := s.job.link, name := s.job.name, log := s.job.log } }
  | .openTransport name ch => .next (openTransport name ch s)
  | .link l => .next { s with job := { s.job with link := l } }
  | .deliver r => .next { s with job := { s.job with inbox := s.job.inbox ++ [r] } }
  | .resetInput => .next { s with job := { s.job with inbox := [] } }
  | .reset => .next (resetBlock s)

/-! ## A print job (R130 to R134, R138, R141) -/

/-- R141: the fields of a `PrintConfig` that are bits. -/
def toggles : List Toggle :=
  [.mirrorPrinting, .autoTapeCut, .halfCut, .chainPrint, .labelEndCut, .highResolution, .bufferClearSuppression]

/-- R141: a field by its name. -/
def toggleOf (pc : PrintConfig) : Toggle → Bool
  | .mirrorPrinting => pc.mirrorPrinting
  | .autoTapeCut => pc.autoTapeCut
  | .halfCut => pc.halfCut
  | .chainPrint => pc.chainPrint
  | .labelEndCut => pc.labelEndCut
  | .highResolution => pc.highResolution
  | .bufferClearSuppression => pc.bufferClearSuppression

/-- Bit `i` of `b` made `v`. -/
def setBit (i : Nat) (v : Bool) (b : Byte) : Byte :=
  if v then b ||| BitVec.ofNat 8 (2 ^ i) else b &&& ~~~ BitVec.ofNat 8 (2 ^ i)

/-- R141: each field whose place is in the flag byte `fb` sets its bit there; "exactly the fields it consumes" are
passed, no other is read (log 25). -/
def setFlagBits (place : Toggle → BitPlace) (fb : FlagByte) (pc : PrintConfig) : List Toggle → Byte → Byte
  | [], b => b
  | t :: ts, b =>
    setFlagBits place fb pc ts
      (if (place t).byte = fb then setBit (place t).bit (toggleOf pc t == (place t).whenOn) b else b)

/-- R132, R133: a flag byte of a print job, the places and the other bits being free. -/
def flagByte (fb : FlagByte) (pc : PrintConfig) : Byte :=
  setFlagBits Config.placeOf fb pc toggles (Config.flagBase fb)

/-- R131: the raster-line count of SET_MEDIA_FORMAT, low byte first. Two bytes hold a count of at most 65535; a longer
bitmap's is taken modulo 65536 here, and no job carries it (`jobMoves`). DESIGN CHOICE (log 33). -/
def lineCountBytes (c : Config) (len : Nat) : List Byte := [lo8 (lineCount c len), hi8 (lineCount c len)]

/-- R130: the operand bytes of SET_MEDIA_FORMAT for a bitmap of `len` bytes, the items in the order the source lists
them: flags, tape width, label length, raster-line count, padding. DEDUCED for the count's place behind whole bytes
(log 33), safe. -/
def mediaOperands (c : Config) (m : MediaFormat) (len : Nat) : List Byte :=
  (List.range Config.mediaFlagCount).map (Config.mediaFlagByte m.quality m.continuous) ++
  (List.range Config.tapeWidthCount).map (Config.tapeWidthByte m.tapeWidth) ++
  (List.range Config.labelLengthCount).map (Config.labelLengthByte m.labelLength) ++
  lineCountBytes c len ++
  (List.range Config.mediaPaddingCount).map Config.mediaPaddingByte

/-- R134: SET_MARGIN carries the feed margin, low byte first. -/
def marginCommand (margin : BitVec 16) : Instr :=
  .setMargin (margin.extractLsb' 0 8) (margin.extractLsb' 8 8)

/-- The move that sends a wire command. -/
def sendCommand (i : Instr) : Move := .command (commandBytes i)

/-- R131: the longest job, "65535 raster lines". -/
def maxLines : Nat := 65535

/-- R138: the moves of a print job; none for a bitmap of more lines than the count can say (R131; log 33). `mode` is an
operand whose value is not in the source (N12), and so is when `reset_input_buffer()` is called (N12): the job never calls
it, and what waits from before the job is read as its status. DESIGN CHOICE (log 37), unsafe. -/
def jobMoves (c : Config) (mode : Byte) (m : MediaFormat) (pc : PrintConfig) (bitmap : List Byte) :
    Option (List Move) :=
  if maxLines < lineCount c bitmap.length then none
  else some
    [sendCommand (.enterRaster mode), sendCommand .initPrinter,
     sendCommand .queryStatus, .present (opWord 2#2 0#8 0#8), .collect,
     sendCommand (.flush 64),
     sendCommand .initPrinter, sendCommand (.enterRaster mode),
     sendCommand (.setMediaFormat (mediaOperands c m bitmap.length)),
     sendCommand (.setExpandedMode (flagByte .expanded pc)), sendCommand (.setModeFlags (flagByte .mode pc)),
     sendCommand (marginCommand pc.feedMargin),
     sendCommand .setCompression,
     .load bitmap, .present (opWord 0#2 0#8 0#8), .transfer,
     sendCommand .printAndFeed,
     .readStatus, .present (opWord 2#2 0#8 0#8), .collect,
     sendCommand .initPrinter]

/-! ## How a job ended (R109, R157) -/

/-- How the host sees a print job (R109, R139, R157). -/
inductive JobOutcome where
  | running
  /-- R139: the job failed; the final status, if it was decoded before (log 35) -/
  | failed (failure : Option (Stage × IoError)) (final : Option StatusFrame)
  /-- R157: there is no final status, or its reply had the wrong length -/
  | unknownOutcome
  /-- R157: the device reports an error -/
  | deviceError (cls : ErrClass) (f : StatusFrame)
  /-- R138: "this is the authoritative result of the job" -/
  | status (f : StatusFrame)
  deriving DecidableEq, Repr

/-- The final status of a job, once decoded. -/
def finalFrame (j : Job) : Option StatusFrame :=
  match j.final with
  | .awaited => none
  | .read _ => none
  | .decoded f => f

/-- R138, R157: what a final frame, or its absence, says of the job. -/
def frameOutcome : Option StatusFrame → JobOutcome
  | none => .unknownOutcome
  | some f =>
    match deviceError f with
    | some cls => .deviceError cls f
    | none => .status f

/-- R109, R139, R157: the outcome of a job. An I/O error of the closing INITIALIZE, after the final status was decoded,
makes it `failed` (R139), with that status beside the failure: the spec calls the status the job's authoritative result
and does not say which of the two counts. DESIGN CHOICE (log 35), unsafe. -/
def jobOutcome (s : State) : JobOutcome :=
  if s.job.stage = .failed then .failed s.job.failure (finalFrame s.job)
  else if s.job.stage = .closed then frameOutcome (finalFrame s.job)
  else .running

/-! ## Pixels and texts -/

/-- R32: pixel `y` of raster line `k` is bit `7 - (y mod 8)` of byte `IN[k*L + (y div 8)]`, 1 for black. R31 gives the
lines `0 <= k < N` and R32 the pixels `0 <= y < H`; elsewhere, and so in a partial last line, there is no pixel and the
answer is none. DESIGN CHOICE for what no pixel answers (log 31), safe. No operation of the block depends on it. -/
def pixelBlack (c : Config) (m : Memory) (k y : Nat) : Option Bool :=
  if k < lineCount c m.length ∧ y < c.height then
    (m.read (k * c.L + y / 8)).map fun b => b.getLsbD (7 - y % 8)
  else none

/-- One uppercase hexadecimal digit. -/
def hexDigit (n : Nat) : Char := "0123456789ABCDEF".toList.getD n '0'

/-- R106: an unknown value is rendered `0x` and two uppercase hexadecimal digits. -/
def hexText (b : Byte) : String :=
  String.ofList ['0', 'x', hexDigit (b.toNat / 16), hexDigit (b.toNat % 16)]

/-- R104 to R106: a code's name in its table, or its hexadecimal text. -/
def codeText (table : List (Byte × String)) (b : Byte) : String :=
  match table.find? (fun e => e.1 == b) with
  | some e => e.2
  | none => hexText b

/-- R120: the text of a classification; the source words only "No media", the other names are those of R18, and
`Unknown` carries both raw bytes. -/
def classText (cls : ErrClass) (e1 e2 : Byte) : String :=
  match cls with
  | .unknown => "Unknown(" ++ hexText e1 ++ ", " ++ hexText e2 ++ ")"
  | .noMedia => "No media"
  | .endOfMedia => "EndOfMedia"
  | .tapeCutJam => "TapeCutJam"
  | .replaceMedia => "ReplaceMedia"
  | .bufferFull => "BufferFull"
  | .transmissionError => "TransmissionError"
  | .transmissionBufferFull => "TransmissionBufferFull"
  | .coverOpen => "CoverOpen"

/-- R62: two hexadecimal digits. -/
def hexPair (b : Byte) : String := String.ofList [hexDigit (b.toNat / 16), hexDigit (b.toNat % 16)]

/-- R62: a byte listing, space-separated. -/
def byteListing (bs : List Byte) : String := String.intercalate " " (bs.map hexPair)

/-- R62: the tokens of a payload in listing notation; what is no whole token is not listed. -/
def tokenListings : Nat → List Byte → List String
  | 0, _ => []
  | fuel + 1, p =>
    match readToken p with
    | .exhausted => []
    | .truncated => []
    | .literal data rest => ("LIT " ++ byteListing data) :: tokenListings fuel rest
    | .run count b rest => ("REP " ++ toString count ++ ", " ++ hexPair b) :: tokenListings fuel rest
    | .skip rest => "NOP" :: tokenListings fuel rest

/-- R62: a packet is written `XFER n`, then its tokens between braces, separated by semicolons. -/
def packetListing (payload : List Byte) : String :=
  "XFER " ++ toString payload.length ++ " " ++ String.singleton (Char.ofNat 123) ++ " " ++
    String.intercalate " ; " (tokenListings payload.length payload) ++ " " ++ String.singleton (Char.ofNat 125)

end Sys2Proof.Machine
end

