-- ==== Sys2Proof/Machine/Fetch.lean ====
section
/-! DEFINITION. Where the next instruction comes from, and what a step does where there is none. -/

namespace Sys2Proof.Machine

open Sys2Proof

/-- The bytes of the stream from the cursor on. -/
def streamLeft (s : State) : List Byte := s.inp.bytes.drop s.pos

/-- R89: the bytes of the payload from `q` on; the payload begins behind the header. -/
def payloadLeft (s : State) : List Byte := memRead s.inp (s.pos + s.cfg.headerLen + s.q) (s.n - s.q)

/-- Whether a whole packet stands at the cursor. -/
def packetAtCursor (s : State) : Bool :=
  match readPacket s.cfg.toFormat (streamLeft s) with
  | .exhausted => false
  | .illegal _ => false
  | .truncated _ => false
  | .overrun _ => false
  | .packet _ _ => true

/-- The code of the next instruction. An idle block takes the host's operation word (R14) or command; a DECODE in
progress takes what stands at the cursor while `POS < len(IN)` (R85), or the token at `q` while `q < n` (R89). A
DECODE observed token by token enters a whole packet instead of running it. A reset comes before everything (R171). -/
def fetch (s : State) : Option Code :=
  if s.host.head? = some .reset then none
  else match s.activity with
    | .idle =>
      match s.host with
      | .present w :: _ => some (.op w)
      | .command bs :: _ => some (.command bs)
      | _ => none
    | .packet tokens =>
      if s.pos < s.inp.length ∧ ¬ (tokens ∧ packetAtCursor s) then some (.packet (streamLeft s)) else none
    | .payload => if s.q < s.n then some (.token (payloadLeft s)) else none

/-- The state an instruction runs in: the host's move that brought it is off the list, and once an operation was
presented the configuration is fixed (log 9). Code fetched from `IN` stays where it is. -/
def accept (s : State) : State :=
  match s.activity with
  | .idle =>
    match s.host with
    | .present _ :: rest => { s with host := rest, started := true }
    | .command _ :: rest => { s with host := rest }
    | _ => s
  | .packet _ => s
  | .payload => s

/-- The bytes of a code that is no operation word. -/
def codeBytes : Code → List Byte
  | .op _ => []
  | .packet bs => bs
  | .token bs => bs
  | .command bs => bs

/-- What code that stands for no instruction does: in a stream the FramingError of R87 or R89 (R91), on the wire a
refusal by name (R125). -/
def decodeFailure (code : Code) (e : DecodeError) (s : State) : Answer :=
  match e with
  | .headerTruncated left => .next (raiseFraming .headerTruncated s.pos left s)
  | .lengthOverrun n => .next (raiseFraming .lengthOverrun s.pos n s)
  | .tokenTruncated => .next (raiseFraming .payloadMalformed s.pos s.q s)
  | .exhausted => .refused (.notACommand (codeBytes code))
  | .unknownCommand => .refused (.notACommand (codeBytes code))
  | .wrongOperands => .refused (.notACommand (codeBytes code))

/-- R85: the header of the packet at the cursor is good, its payload is entered with `U <- [] ; q <- 0`. -/
def enterPayload (s : State) : State :=
  match readPacket s.cfg.toFormat (streamLeft s) with
  | .exhausted => s
  | .illegal _ => s
  | .truncated _ => s
  | .overrun _ => s
  | .packet payload _ => { s with u := [], q := 0, n := payload.length, activity := .payload }

/-- R85, R88: every token of the payload is done; the line is checked and accepted, and the walk goes on. -/
def leavePayload (s : State) : Answer :=
  packetEffect s.n (checkLine s.cfg s.out.length s.u)
    { s with u := [], q := 0, n := 0, activity := .packet true }

/-- A step without an instruction: a reset, another move of the host, the entry to and the exit from a payload, or the
end of a DECODE at `POS = len(IN)` (R87). An idle block without a move stays as it is (R22). -/
def betweenInstructions (s : State) : Answer :=
  match s.host, s.activity with
  | .reset :: rest, _ => .next (resetBlock { s with host := rest })
  | m :: rest, .idle => hostMove m { s with host := rest }
  | [], .idle => .next s
  | _, .packet _ => if s.pos < s.inp.length then .next (enterPayload s) else .next (endDecode s)
  | _, .payload => leavePayload s

/-- The state with `code` where `fetch` takes its next instruction: on the host's list for an operation word or a
command, at the cursor of a DECODE in progress for a packet, at the start of a payload for a token (log 22). -/
def placeCode (code : Code) (s : State) : State :=
  match code with
  | .op w => { s with activity := .idle, host := .present w :: s.host }
  | .command bs => { s with activity := .idle, host := .command bs :: s.host }
  | .packet bs =>
    { s with activity := .packet false, inp := Memory.ofBytes bs, pos := 0, host := s.host.dropWhile (· == .reset) }
  | .token bs =>
    { s with
      activity := .payload, inp := Memory.ofBytes (wrapPacket s.cfg.toFormat bs), pos := 0, u := [], q := 0, n := bs.length
      host := s.host.dropWhile (· == .reset) }

end Sys2Proof.Machine
end

