-- ==== Sys2Proof/Machine/Step.lean ====
section
/-! DEFINITION. One step of the machine, and the state whose next step runs a given word of the opcode table. -/

namespace Sys2Proof.Machine

open Sys2Proof

/-- One step: the instruction `fetch` finds, or what happens where there is none. -/
def step (s : State) : Host.Outcome State Fault Refusal :=
  match fetch s with
  | none => betweenInstructions s
  | some code =>
    match decode s.cfg.toFormat code with
    | .ok (i, _) => exec i (accept s)
    | .error e => decodeFailure code e (accept s)

/-- `s` with the instruction of a table word placed where `step` fetches next. -/
def State.withFetchWord (s : State) (nbits w : Nat) : State := placeCode (tableCode s.cfg.toFormat nbits w) s

end Sys2Proof.Machine
end

