-- ==== Sys2Proof/Machine/Pseudocode.lean ====
section
/-! DEFINITION. The loops of 40_encode.md R76 and 41_decode.md R89 index by index, as the spec writes them: what
`pack` and `unpack`, which walk the list itself, are held against. -/

namespace Sys2Proof.Machine

open Sys2Proof

/-- `LINE[i]`; the loops read it below the line's length only. -/
def lineByte (line : List Byte) (i : Nat) : Byte := line.getD i 0x00#8

/-- R76: `while i + r < L and r < 128 and LINE[i + r] = LINE[i]: r <- r + 1`. -/
def runLoop (line : List Byte) (i : Nat) : Nat → Nat → Nat
  | 0, r => r
  | fuel + 1, r =>
    if i + r < line.length ∧ r < 128 ∧ lineByte line (i + r) = lineByte line i then runLoop line i fuel (r + 1) else r

/-- R76: `while j < L and (j - i) < 128 and not (j + 1 < L and LINE[j + 1] = LINE[j]): j <- j + 1`. -/
def literalLoop (line : List Byte) (i : Nat) : Nat → Nat → Nat
  | 0, j => j
  | fuel + 1, j =>
    if j < line.length ∧ j - i < 128 ∧ ¬ (j + 1 < line.length ∧ lineByte line (j + 1) = lineByte line j) then
      literalLoop line i fuel (j + 1)
    else j

/-- R76: the outer loop, `P` the payload so far. The inner loops run at most 128 times, the outer one `L` times. -/
def packLoop (line : List Byte) : Nat → Nat → List Byte → List Byte
  | 0, _, p => p
  | fuel + 1, i, p =>
    if i < line.length then
      if 2 ≤ runLoop line i 128 1 then
        packLoop line fuel (i + runLoop line i 128 1)
          (p ++ [BitVec.ofNat 8 (257 - runLoop line i 128 1), lineByte line i])
      else
        packLoop line fuel (literalLoop line i 128 (i + 1))
          (p ++ [BitVec.ofNat 8 (literalLoop line i 128 (i + 1) - i - 1)]
            ++ (line.drop i).take (literalLoop line i 128 (i + 1) - i))
    else p

/-- R76 as written. -/
def packPseudocode (line : List Byte) : List Byte := packLoop line line.length 0 []

/-- R89: the loop, `u` the output so far. -/
def unpackLoop (p : List Byte) : Nat → Nat → List Byte → Except Nat (List Byte)
  | 0, _, u => .ok u
  | fuel + 1, q, u =>
    if q < p.length then
      if (lineByte p q).toNat ≤ 0x7F then
        if q + 1 + ((lineByte p q).toNat + 1) > p.length then .error q
        else
          unpackLoop p fuel (q + 1 + ((lineByte p q).toNat + 1))
            (u ++ (p.drop (q + 1)).take ((lineByte p q).toNat + 1))
      else if lineByte p q = 0x80#8 then unpackLoop p fuel (q + 1) u
      else if q + 1 ≥ p.length then .error q
      else unpackLoop p fuel (q + 2) (u ++ List.replicate (257 - (lineByte p q).toNat) (lineByte p (q + 1)))
    else .ok u

/-- R89 as written. -/
def unpackPseudocode (p : List Byte) : Except Nat (List Byte) := unpackLoop p p.length 0 []

end Sys2Proof.Machine
end

