-- ==== Sys2Proof/Safety.lean ====
section
/-! DEFINITION. What a good state is, what an instruction leaves alone, in the terms the statements use. -/

namespace Sys2Proof.Machine

open Sys2Proof

/-- The record `f` is what PARSE computes from its own bytes under the tables of `c` (R104, R105, R107). -/
def StatusFrame.Consistent (c : Config) (f : StatusFrame) : Prop :=
  f.errClass = classifyFn c f.error1 f.error2 ∧
  f.statusTypeKnown = isKnownStatusType c f.statusType ∧
  f.batteryKnown = isKnownBattery c f.battery

/-- The record `r` is what CLASSIFY computes from its own bytes under the tables of `c` (R115). -/
def ClassRecord.Consistent (c : Config) (r : ClassRecord) : Prop := r.code = classifyFn c r.e1 r.e2

/-- The sequencer's state agrees with the steps done, and only a failed job has a failure (R138, R139). -/
structure Job.Good (j : Job) : Prop where
  cursor_le : j.cursor ≤ 15
  stage_eq : j.stage ≠ .failed → j.stage = stageAt j.cursor
  failure_iff : j.failure = none ↔ j.stage ≠ .failed

/-- What every step keeps. -/
structure State.Good (s : State) : Prop where
  /-- R172 -/
  cfg_wf : s.cfg.wf = true
  /-- R20: the spaces are canonical and within `MAX_BYTES` -/
  inp_wf : Memory.wf s.inp
  out_wf : Memory.wf s.out
  inp_le : s.inp.length ≤ s.cfg.maxBytes
  out_le : s.out.length ≤ s.cfg.maxBytes
  /-- R11: `LINE` is `L` bytes -/
  line_len : s.line.length = s.cfg.L
  /-- R12: during a DECODE `POS <= len(IN)` -/
  pos_le : s.activity ≠ .idle → s.pos ≤ s.inp.length
  /-- R13, R85: during a DECODE `OUT` holds the `K` lines appended so far -/
  out_lines : s.activity ≠ .idle → s.out.length = s.k * s.cfg.L
  /-- R89: inside a payload the packet lies in the stream and the token in the payload -/
  in_payload : s.activity = .payload → s.pos + s.cfg.headerLen + s.n ≤ s.inp.length ∧ s.q ≤ s.n
  /-- UNPACK's variables are empty outside a payload (log 8) -/
  no_payload : s.activity ≠ .payload → s.u = [] ∧ s.q = 0 ∧ s.n = 0
  /-- R15: a success has no position and no value -/
  result_ok : s.result.code = .ok → s.result.pos = 0 ∧ s.result.aux = 0
  /-- R104, R105, R107 -/
  sf_ok : ∀ f, s.sf = some f → f.Consistent s.cfg
  /-- R115 -/
  cls_ok : ∀ r, s.cls = some r → r.Consistent s.cfg
  /-- R22: before the first operation nothing was computed -/
  not_started : s.started = false → s.sf = none ∧ s.cls = none ∧ s.out = [] ∧ s.activity = .idle
  /-- R138, R139 -/
  job_good : s.job.Good

/-- The block's state is the same in both states (the print job, the moves to come and the draws of free values may
differ). -/
structure SameBlock (s t : State) : Prop where
  cfg : t.cfg = s.cfg
  inp : t.inp = s.inp
  out : t.out = s.out
  line : t.line = s.line
  k : t.k = s.k
  pos : t.pos = s.pos
  u : t.u = s.u
  q : t.q = s.q
  n : t.n = s.n
  result : t.result = s.result
  sf : t.sf = s.sf
  cls : t.cls = s.cls
  activity : t.activity = s.activity
  started : t.started = s.started

/-- `payloads` are well-formed packets' payloads and `lines` what they unpack to (R52, R53, R56). -/
structure GoodPackets (c : Config) (payloads lines : List (List Byte)) : Prop where
  unpacked : payloads.map unpack = lines.map Except.ok
  short : ∀ p ∈ payloads, p.length < 256 ^ c.lenBytes
  line_len : ∀ l ∈ lines, l.length = c.L

/-- The stream of some payloads: their packets back to back (R53). -/
def packetStream (p : Format) (payloads : List (List Byte)) : List Byte := payloads.flatMap (wrapPacket p)

/-- DECODE ends with the error `c` at offset `pos` with value `aux`, and nothing is delivered (R91). -/
def DecodeReports (s : State) (c : Cause) (pos aux : Nat) : Prop :=
  ∃ t, exec .decode s = .next t ∧ t.result = ⟨c, pos, aux⟩ ∧ t.out = [] ∧ t.activity = .idle

/-- The instruction goes on, writes exactly `bytes` to the transport, which answers with their number (R142), and leaves
the block, the moves to come, what waits and the transport's name alone; the link is released where that ends the job
(R138 step 12). -/
def Writes (i : Instr) (s : State) (bytes : List Byte) : Prop :=
  ∃ t, exec i s = .next t ∧ t.job.wire = s.job.wire ++ bytes ∧ t.job.written = some bytes.length ∧
    t.job.inbox = s.job.inbox ∧ t.job.name = s.job.name ∧
    t.job.link = (if t.job.stage = .closed then .down else .up) ∧ t.fresh = s.fresh ∧ t.host = s.host ∧ SameBlock s t

/-- A command can be written: the job is not over and the link is up (R139, R142). -/
def CanWrite (s : State) : Prop := jobOver s.job = false ∧ s.job.link = .up

/-- R139: in `t` the job has failed with the error `e` in the state `at_`: the transport is closed, and of the moves to
come only the world's and those from the next start of a job on are left. -/
structure Failed (at_ : Stage) (e : IoError) (s t : State) : Prop where
  stage : t.job.stage = .failed
  failure : t.job.failure = some (at_, e)
  link : t.job.link = .down
  host : t.host = abortSequence s.host

/-- The bytes of the stream among what waits. -/
def dataOf : List Reply → List Byte
  | [] => []
  | .data bs :: rest => bs ++ dataOf rest
  | .whole _ :: rest => dataOf rest
  | .ioError :: rest => dataOf rest

/-- The step of a print job that a wire command is (R138); none for an instruction of the block. -/
def commandStep : Instr → Option JobStep
  | .encode => none
  | .decode => none
  | .parse => none
  | .classify _ _ => none
  | .xfer _ => none
  | .lit _ => none
  | .rep _ _ => none
  | .nop => none
  | .illegalStreamOpcode _ => none
  | .enterRaster _ => some .enterRaster
  | .initPrinter => some .initPrinter
  | .queryStatus => some .queryStatus
  | .flush _ => some .flush
  | .setMediaFormat _ => some .setMediaFormat
  | .setModeFlags _ => some .setModeFlags
  | .setExpandedMode _ => some .setExpandedMode
  | .setMargin _ _ => some .setMargin
  | .setCompression => some .setCompression
  | .printAndFeed => some .printAndFeed

end Sys2Proof.Machine
end

