-- ==== Sys2Proof/Certificates/Slice0/Obligations.lean ====
section
/-! DEFINITION. The statements for the provers. "D<n>" is a decision of spec/92_eei_decisions.md, where the spec says
that the source is silent; a statement that rests on one is derived, not stated. "log n" is notes/assumptions/n.md. -/

open Sys2Proof Sys2Proof.Machine

/-! ## Reset and invariant -/

/-- 10_state.md R22 and 70_reset_and_hazards.md R170 (D17): what reset leaves, and that an idle block waits. The last
clause is the model's reading, not what R22 says of reset, which leaves the configuration unspecified: the parameters that
R172 says "need no setting" hold the values 00_scope.md R5 gives (log 11). -/
def Obligations.ResetLeavesAnIdleBlock : Prop :=
  State.reset.result = ⟨.ok, 0, 0⟩ ∧ State.reset.sf = none ∧ State.reset.cls = none ∧ State.reset.out = [] ∧
  State.reset.activity = .idle ∧ step State.reset = .next State.reset ∧
  State.reset.cfg.toFormat = Format.source

/-- The invariant `State.Good` holds at reset; the values of the configuration, `IN`, `LINE`, `K`, `POS` and the job at
reset are the model's choice (logs 4, 5, 6, 12). -/
def Obligations.ResetIsGood : Prop := State.reset.Good

/-- Every step keeps the invariant: canonical spaces within `MAX_BYTES` (R20, R177), `LINE` of `L` bytes (R11), the
cursor in the stream and `OUT` holding `K` lines during a DECODE (R12, R13), the record of `SF` agreeing with its own
bytes (R104, R105, R107), `CLASS` likewise (R115), the sequencer's state (R138, R139; log 13). -/
def Obligations.StepKeepsGood : Prop :=
  ∀ s t : State, s.Good → step s = .next t → t.Good

/-! ## Encoding -/

/-- Decoding an encoded well-formed instruction gives it back, in every format, with every operand and with the code
that follows it. -/
def Obligations.DecodeReadsWhatEncodeWrites : Prop :=
  ∀ (p : Format) (i : Instr) (more : List Byte), i.wf p = true →
    decode p ((encode p i).followedBy more) =
      .ok (i, match encode p i with
        | .op _ => []
        | .packet _ => more
        | .token _ => more
        | .command _ => [])

/-- A code has one meaning, in every format: what the decoder reads is well-formed, and encodes to exactly the bytes that
were read; an operation word is determined by its `OP` bits, and by all its bits for CLASSIFY (R50). -/
def Obligations.EncodeWritesWhatDecodeReads : Prop :=
  ∀ (p : Format) (c : Code) (i : Instr) (rest : List Byte), decode p c = .ok (i, rest) →
    i.wf p = true ∧
    match c with
    | .op w =>
      ∃ w', encode p i = .op w' ∧ w'.extractLsb' 0 2 = w.extractLsb' 0 2 ∧ (w.extractLsb' 0 2 = 3#2 → w' = w)
    | .packet bs => (encode p i).followedBy rest = .packet bs
    | .token bs => (encode p i).followedBy rest = .token bs
    | .command bs => encode p i = .command bs ∧ rest = []

/-- Words written out from the encodings of 30_encoding.md decode to the instructions they stand for. -/
def Obligations.SampleWordsDecode : Prop :=
  decode Format.source (.op 0x04007#18) = .ok (.classify 0x01#8 0x10#8, []) ∧
  decode Format.source (.op 0x3FFFD#18) = .ok (.decode, []) ∧
  decode Format.source (.packet [0x47#8, 0x02#8, 0x00#8, 0xF1#8, 0xFF#8, 0x5A#8]) = .ok (.xfer [0xF1#8, 0xFF#8], [0x5A#8]) ∧
  decode Format.source (.packet [0x1B#8, 0x40#8]) = .ok (.illegalStreamOpcode 0x1B#8, [0x40#8]) ∧
  decode Format.source (.token [0x01#8, 0x12#8, 0x34#8, 0x80#8]) = .ok (.lit [0x12#8, 0x34#8], [0x80#8]) ∧
  decode Format.source (.token [0x81#8, 0x41#8]) = .ok (.rep 128 0x41#8, []) ∧
  decode Format.source (.token [0x80#8]) = .ok (.nop, []) ∧
  decode Format.source (.command [0x1B#8, 0x69#8, 0x64#8, 0x34#8, 0x12#8]) = .ok (.setMargin 0x34#8 0x12#8, [])

/-- R52: with the length field of two bytes that the source gives, the length operand is `len_lo + 256 * len_hi`,
unsigned and unscaled, and the encoder writes the low and the high byte of the payload's length. -/
def Obligations.PacketLengthIsLittleEndian : Prop :=
  (∀ (lo hi : Byte) (body : List Byte),
    readPacket Format.source (0x47#8 :: lo :: hi :: body) =
      if body.length < lo.toNat + 256 * hi.toNat then .overrun (lo.toNat + 256 * hi.toNat)
      else .packet (body.take (lo.toNat + 256 * hi.toNat)) (body.drop (lo.toNat + 256 * hi.toNat))) ∧
  (∀ lo hi : Byte, lo.toNat + 256 * hi.toNat ≤ 65535) ∧
  ∀ p : List Byte, p.length ≤ 65535 →
    ∃ lo hi : Byte, wrapPacket Format.source p = 0x47#8 :: lo :: hi :: p ∧
      lo.toNat = p.length % 256 ∧ hi.toNat = p.length / 256

/-! ## The step -/

/-- When the code that `fetch` finds decodes to an instruction, the step is that instruction's meaning in the accepting
state, which differs only for an idle block: the host's move is taken off the list, and once an operation word was taken
the configuration is fixed (log 9). -/
def Obligations.StepRunsTheDecodedInstruction : Prop :=
  (∀ (s : State) (c : Code) (i : Instr) (rest : List Byte),
    fetch s = some c → decode s.cfg.toFormat c = .ok (i, rest) → step s = exec i (accept s)) ∧
  (∀ (s : State) (w : OpWord) (rest : List Move), s.activity = .idle → s.host = .present w :: rest →
    fetch s = some (.op w) ∧ accept s = { s with host := rest, started := true }) ∧
  (∀ (s : State) (bs : List Byte) (rest : List Move), s.activity = .idle → s.host = .command bs :: rest →
    fetch s = some (.command bs) ∧ accept s = { s with host := rest }) ∧
  (∀ s : State, s.activity = .packet false → s.host.head? ≠ some .reset → s.pos < s.inp.length →
    fetch s = some (.packet (s.inp.bytes.drop s.pos)) ∧ accept s = s) ∧
  (∀ s : State, s.activity = .payload → s.host.head? ≠ some .reset → s.q < s.n →
    fetch s = some (.token ((s.inp.bytes.drop (s.pos + s.cfg.headerLen + s.q)).take (s.n - s.q))) ∧ accept s = s)

/-- R87, R89 (D8): a DECODE at a packet boundary where the header is cut short or the declared length runs past the end
of the stream, or in a payload that ends inside a token, ends with the FramingError sub-cause of that case. (The source's
length field has two bytes, and `leNat` of them is `len_lo + 256 * len_hi`.) -/
def Obligations.MalformedStreamCodeEndsTheDecode : Prop :=
  ∀ s : State, s.host.head? ≠ some .reset →
    ((∀ tokens, s.activity = .packet tokens →
      (∀ tl, s.inp.bytes.drop s.pos = s.cfg.xferOp :: tl → tl.length < s.cfg.lenBytes →
        ∃ t, step s = .next t ∧ t.result = ⟨.headerTruncated, s.pos, 1 + tl.length⟩ ∧ t.out = [] ∧
          t.activity = .idle) ∧
      (∀ len body, s.inp.bytes.drop s.pos = s.cfg.xferOp :: (len ++ body) → len.length = s.cfg.lenBytes →
        body.length < leNat len →
        ∃ t, step s = .next t ∧ t.result = ⟨.lengthOverrun, s.pos, leNat len⟩ ∧ t.out = [] ∧ t.activity = .idle)) ∧
    (s.activity = .payload → s.q < s.n → readToken (payloadLeft s) = .truncated →
        ∃ t, step s = .next t ∧ t.result = ⟨.payloadMalformed, s.pos, s.q⟩ ∧ t.out = [] ∧ t.activity = .idle))

/-- A DECODE observed packet by packet, or token by token, arrives where the DECODE of one step arrives, refusals
included, and does so within as many steps as the stream has bytes and two more (R8, R85, R89, R178; log 1). -/
def Obligations.ObservedDecodeIsTheOperation : Prop :=
  ∀ (s : State) (tokens : Bool), s.activity = .idle → 1 ≤ s.cfg.lenBytes →
    Host.Core.run Sys2Proof.core (s.inp.length + 2) { s with host := [.trace tokens] } =
      exec .decode { s with host := [], started := true }

/-- R171: a reset comes before everything, also during a DECODE, which it abandons: no `RESULT` of it is written, and
`OUT` is empty (log 23 for the rest of the block's state). -/
def Obligations.ResetAbandonsTheOperation : Prop :=
  ∀ (s : State) (rest : List Move), s.host = .reset :: rest →
    ∃ t, step s = .next t ∧ t.result = ⟨.ok, 0, 0⟩ ∧ t.out = [] ∧ t.sf = none ∧ t.cls = none ∧ t.activity = .idle ∧
      t.host = rest ∧ t.job = s.job

/-- 93_implementation_defined.md U12: a read of `SF` or `CLASS` has no value while it is empty, and changes nothing
otherwise. -/
def Obligations.ReadingAnEmptyResultFaults : Prop :=
  ∀ (s : State) (rest : List Move), s.activity = .idle →
    (s.host = .readSf :: rest →
      step s = if s.sf = none then .fault .sfEmpty else .next { s with host := rest }) ∧
    (s.host = .readClass :: rest →
      step s = if s.cls = none then .fault .classEmpty else .next { s with host := rest })

/-! ## Whole-machine rules -/

/-- R19, R172 (D18; logs 9, 11): no step changes the configuration but a reset and the host's setting of it, before the
first operation and within the bounds, which leaves what the source fixes as it is. -/
def Obligations.ConfigurationIsFixed : Prop :=
  ∀ s t : State, step s = .next t →
    t.cfg = s.cfg ∨
    (∃ c rest, s.host = .configure c :: rest ∧ s.activity = .idle ∧ s.started = false ∧
      t.cfg = { s.cfg with toSettings := c } ∧ t.cfg.wf = true) ∨
    ∃ rest, s.host = .reset :: rest

/-- R16, R18: only a PARSE changes `SF` and only a CLASSIFY changes `CLASS` (a reset empties both). -/
def Obligations.ResultsHaveOneWriter : Prop :=
  ∀ s t : State, step s = .next t →
    (t.sf = s.sf ∨ (∃ w, fetch s = some (.op w) ∧ decodeOp w = .parse) ∨ ∃ rest, s.host = .reset :: rest) ∧
    (t.cls = s.cls ∨ (∃ w e1 e2, fetch s = some (.op w) ∧ decodeOp w = .classify e1 e2) ∨
      ∃ rest, s.host = .reset :: rest)

/-- R20, R30, R174: the block never writes `IN`, and no move of the host does during an operation: only between two of
them the host loads it, copies `OUT` to it, or hands it a status reply (a reset empties it at any time, log 4). -/
def Obligations.OnlyTheHostWritesTheInput : Prop :=
  ∀ s t : State, step s = .next t →
    t.inp = s.inp ∨
    (s.activity = .idle ∧ ∃ m rest, s.host = m :: rest ∧ ((∃ bs, m = .load bs) ∨ m = .copyOut ∨ m = .readStatus)) ∨
    (∃ rest, s.host = .reset :: rest) ∨
    (s.activity = .idle ∧ fetch s = some (.command [0x1B#8, 0x69#8, 0x53#8]))

/-- R21: what an operation puts into `OUT`, `RESULT`, and into `SF` (PARSE) or `CLASS` (CLASSIFY) depends on `IN`, the
operation word and the configuration alone. -/
def Obligations.OperationsDependOnTheInputAlone : Prop :=
  ∀ (i : Instr) (s s' : State),
    (i = .encode ∨ i = .decode ∨ i = .parse ∨ ∃ e1 e2, i = .classify e1 e2) →
    s'.cfg = s.cfg → s'.inp = s.inp →
    (∀ t, exec i s = .next t → ∃ t', exec i s' = .next t' ∧ t'.out = t.out ∧ t'.result = t.result ∧
      (i = .parse → t'.sf = t.sf) ∧ ((∃ e1 e2, i = .classify e1 e2) → t'.cls = t.cls)) ∧
    (∀ r, exec i s = .refused r → exec i s' = .refused r)

/-! ## ENCODE -/

/-- R70, R72, R74: where `IN` is `N` whole raster lines and the output fits, ENCODE completes: `OUT` is the `N` packets
in line order, packet `k` the opcode, the little-endian length and the payload PACK gives for line `k`. The choice of
the tokens is the spec's (D7). `LINE` and `K` hold any value afterwards (U8; log 7). -/
def Obligations.EncodeEmitsOnePacketPerLine : Prop :=
  ∀ (s : State) (out : List Byte),
    s.inp.length % s.cfg.L = 0 →
    out = (List.range (s.inp.length / s.cfg.L)).flatMap (fun k =>
      s.cfg.xferOp :: (leBytes s.cfg.lenBytes (pack ((s.inp.bytes.drop (k * s.cfg.L)).take s.cfg.L)).length
        ++ pack ((s.inp.bytes.drop (k * s.cfg.L)).take s.cfg.L))) →
    out.length ≤ s.cfg.maxBytes →
    ∃ line k fresh, exec .encode s = .next
      { s with
        out := Memory.ofBytes out, result := ⟨.ok, 0, 0⟩, activity := .idle, u := [], q := 0, n := 0
        line := line, k := k, fresh := fresh }

/-- R71 (D4, D9): a bitmap with a partial last line raises `PartialLine` and emits nothing. -/
def Obligations.EncodeRejectsAPartialLine : Prop :=
  ∀ s : State, s.inp.length % s.cfg.L ≠ 0 →
    ∃ t, exec .encode s = .next t ∧ t.out = [] ∧
      t.result = ⟨.partialLine, s.inp.length / s.cfg.L * s.cfg.L, s.inp.length % s.cfg.L⟩ ∧
      causeCode t.result.code = 7#3 ∧ t.sf = s.sf ∧ t.cls = s.cls ∧ t.inp = s.inp ∧ t.activity = .idle

/-- U5 (R79, R177; log 10): an output that `OUT` cannot hold has no meaning; ENCODE stops exactly there, by name. -/
def Obligations.EncodeStopsOnlyWhenTheOutputIsTooLong : Prop :=
  ∀ s : State,
    ((∀ t, exec .encode s ≠ .next t) → exec .encode s = .refused .outputTooLong) ∧
    ((∀ t, exec .encode s ≠ .next t) ↔
      s.inp.length % s.cfg.L = 0 ∧ s.cfg.maxBytes < (encodeStream s.cfg s.inp).length)

/-- R77 (a): `UNPACK(PACK(LINE)) = LINE` for every line. -/
def Obligations.UnpackInvertsPack : Prop :=
  ∀ line : List Byte, unpack (pack line) = .ok line

/-- R77 (b), (c): PACK emits `LIT` and `REP` tokens only, each within its range, whose outputs in order are the line. -/
def Obligations.PackEmitsLiteralsAndRuns : Prop :=
  ∀ line : List Byte, ∃ tokens : List (List Byte × List Byte),
    (∀ t ∈ tokens,
      (∃ d : List Byte, 1 ≤ d.length ∧ d.length ≤ 128 ∧ t = (emitLit d, d)) ∨
      (∃ (r : Nat) (b : Byte), 2 ≤ r ∧ r ≤ 128 ∧ t = (emitRep r b, List.replicate r b))) ∧
    pack line = tokens.flatMap Prod.fst ∧ line = tokens.flatMap Prod.snd

/-- R76: PACK is the spec's loop over `i`, `r` and `j` (D7). -/
def Obligations.PackIsThePseudocode : Prop :=
  ∀ line : List Byte, pack line = packPseudocode line

/-- R78: `2 <= len(PACK(LINE)) <= 2 * L`, and at most `L + ((L + 2) div 3)` for `L <= 128`. -/
def Obligations.PackedLengthIsBounded : Prop :=
  ∀ line : List Byte, 1 ≤ line.length →
    2 ≤ (pack line).length ∧ (pack line).length ≤ 2 * line.length ∧
    (line.length ≤ 128 → (pack line).length ≤ line.length + (line.length + 2) / 3)

/-- R72: lines are compressed independently, so a bitmap of whole lines followed by another gives the first one's
packets followed by the second one's. -/
def Obligations.EncodeIsLineByLine : Prop :=
  ∀ (c : Config) (a b : List Byte), 1 ≤ c.L → a.length % c.L = 0 →
    encodeStream c (Memory.ofBytes (a ++ b)) =
      encodeStream c (Memory.ofBytes a) ++ encodeStream c (Memory.ofBytes b)

/-- R79: a successful ENCODE of `N` lines gives between `5 * N` and `(3 + 2 * L) * N` bytes, the header's length being
3. -/
def Obligations.EncodedLengthIsBounded : Prop :=
  ∀ s t : State, 1 ≤ s.cfg.L → exec .encode s = .next t → t.result.code = .ok →
    (s.cfg.headerLen + 2) * (s.inp.length / s.cfg.L) ≤ t.out.length ∧
    t.out.length ≤ (s.cfg.headerLen + 2 * s.cfg.L) * (s.inp.length / s.cfg.L) ∧ Format.source.headerLen = 3

/-! ## DECODE -/

/-- R92 (a), the source's round trip: where the configuration is within its bounds and `IN` within `MAX_BYTES`, a
successful ENCODE followed by a DECODE of its `OUT` gives back `IN`, byte for byte. -/
def Obligations.DecodeInvertsEncode : Prop :=
  ∀ s t : State, s.cfg.wf = true → s.inp.wf → s.inp.length ≤ s.cfg.maxBytes →
    exec .encode s = .next t → t.result.code = .ok →
    ∃ t', exec .decode { t with inp := t.out } = .next t' ∧ t'.result = ⟨.ok, 0, 0⟩ ∧ t'.out = s.inp

/-- R53, R56, R85, R88: DECODE succeeds with the output `out` exactly when the stream is packets back to back whose
payloads are whole tokens that unpack to `L` bytes each, and `out` is their lines in order and fits. -/
def Obligations.DecodeAcceptsExactlyTheGoodStreams : Prop :=
  ∀ (s : State) (out : List Byte),
    (∃ t, exec .decode s = .next t ∧ t.result = ⟨.ok, 0, 0⟩ ∧ t.out = Memory.ofBytes out ∧ t.activity = .idle) ↔
    (∃ payloads lines, GoodPackets s.cfg payloads lines ∧ s.inp.bytes = packetStream s.cfg.toFormat payloads ∧
      out = lines.flatten ∧ out.length ≤ s.cfg.maxBytes)

/-- R86, with what an error delivers and records (R91, R151; D8, D9): at every position where a packet must start, a byte
other than `XFER_OP` raises `UnexpectedOpcode`; nothing is skipped and there is no resynchronisation. As an instruction
of its own and behind any good packets. -/
def Obligations.UnexpectedOpcodeRaises : Prop :=
  ∀ (s : State) (b : Byte), b ≠ s.cfg.xferOp →
    (∃ t, exec (.illegalStreamOpcode b) s = .next t ∧ t.result = ⟨.unexpectedOpcode, s.pos, b.toNat⟩ ∧ t.out = [] ∧
      t.activity = .idle ∧ t.sf = s.sf ∧ t.cls = s.cls ∧ t.inp = s.inp ∧ t.cfg = s.cfg) ∧
    (∀ payloads lines rest, GoodPackets s.cfg payloads lines → lines.flatten.length ≤ s.cfg.maxBytes →
      s.inp.bytes = packetStream s.cfg.toFormat payloads ++ b :: rest →
      DecodeReports s .unexpectedOpcode (packetStream s.cfg.toFormat payloads).length b.toNat)

/-- R87 to R91 (D8): behind good packets, the first malformed packet is the one reported, with the cause that the order
of the checks gives, at the offset of its opcode byte, and no line is delivered. -/
def Obligations.DecodeReportsTheFirstBadPacket : Prop :=
  ∀ (s : State) (payloads lines : List (List Byte)) (pos : Nat),
    GoodPackets s.cfg payloads lines → lines.flatten.length ≤ s.cfg.maxBytes →
    pos = (packetStream s.cfg.toFormat payloads).length →
    (∀ tl, s.inp.bytes = packetStream s.cfg.toFormat payloads ++ s.cfg.xferOp :: tl → tl.length < s.cfg.lenBytes →
      DecodeReports s .headerTruncated pos (1 + tl.length)) ∧
    (∀ len body, s.inp.bytes = packetStream s.cfg.toFormat payloads ++ s.cfg.xferOp :: (len ++ body) →
      len.length = s.cfg.lenBytes → body.length < leNat len →
      DecodeReports s .lengthOverrun pos (leNat len)) ∧
    (∀ p q rest, p.length < 256 ^ s.cfg.lenBytes →
      s.inp.bytes = packetStream s.cfg.toFormat payloads ++ wrapPacket s.cfg.toFormat p ++ rest →
      unpack p = .error q →
      DecodeReports s .payloadMalformed pos q) ∧
    (∀ p u rest, p.length < 256 ^ s.cfg.lenBytes →
      s.inp.bytes = packetStream s.cfg.toFormat payloads ++ wrapPacket s.cfg.toFormat p ++ rest →
      unpack p = .ok u → u.length ≠ s.cfg.L →
      DecodeReports s .lineLength pos u.length)

/-- R92 (b): decoding a stream twice yields the same results, and the input is not changed. -/
def Obligations.DecodingTwiceIsTheSame : Prop :=
  ∀ s t : State, exec .decode s = .next t →
    t.inp = s.inp ∧ ∃ t', exec .decode t = .next t' ∧ t'.out = t.out ∧ t'.result = t.result ∧ t'.inp = s.inp

/-- U5 (R177; log 10): DECODE stops, by name, exactly where the stream begins with good packets whose lines are more than
`OUT` holds. -/
def Obligations.DecodeStopsOnlyWhenTheOutputIsTooLong : Prop :=
  ∀ s : State,
    ((∀ t, exec .decode s ≠ .next t) → exec .decode s = .refused .outputTooLong) ∧
    ((∀ t, exec .decode s ≠ .next t) ↔
      ∃ payloads lines rest, GoodPackets s.cfg payloads lines ∧
        s.inp.bytes = packetStream s.cfg.toFormat payloads ++ rest ∧ s.cfg.maxBytes < lines.flatten.length)

/-- R89: UNPACK is the spec's loop over `q` (token format G1, D5, D6). -/
def Obligations.UnpackIsThePseudocode : Prop :=
  ∀ p : List Byte, unpack p = unpackPseudocode p

/-- R88, with what an error delivers (R91, D9; log 30), the room in `OUT` (U5; log 10) and in every state (log 24): the
unpacked payload must be exactly `L` bytes; shorter or longer raises `LineLength` with its length; a line
that passes is copied to `LINE` and appended to `OUT` (and `K` and `POS` move on, R85, R87). -/
def Obligations.XferChecksTheLineLength : Prop :=
  ∀ (s : State) (payload u : List Byte), unpack payload = .ok u →
    (u.length ≠ s.cfg.L →
      ∃ t, exec (.xfer payload) s = .next t ∧ t.result = ⟨.lineLength, s.pos, u.length⟩ ∧ t.out = [] ∧
        t.activity = .idle) ∧
    (u.length = s.cfg.L → s.out.length + s.cfg.L ≤ s.cfg.maxBytes →
      exec (.xfer payload) s = .next
        { s with
          line := u, out := Memory.ofBytes (s.out.bytes ++ u), k := s.k + 1, pos := s.pos + s.cfg.headerLen + payload.length })

/-- R85, R89 (D8): a payload with an incomplete token raises `PayloadMalformed` with the token's offset. -/
def Obligations.XferRejectsAnIncompleteToken : Prop :=
  ∀ (s : State) (payload : List Byte) (q : Nat), unpack payload = .error q →
    ∃ t, exec (.xfer payload) s = .next t ∧ t.result = ⟨.payloadMalformed, s.pos, q⟩ ∧ t.out = [] ∧
      t.activity = .idle ∧ t.sf = s.sf ∧ t.cls = s.cls ∧ t.inp = s.inp

/-- R89: what the three tokens do to UNPACK's output and offset, and that they change nothing else (token format G1,
D5, D6). -/
def Obligations.TokensExtendTheOutput : Prop :=
  ∀ s : State,
    (∀ data : List Byte, exec (.lit data) s = .next { s with u := s.u ++ data, q := s.q + 1 + data.length }) ∧
    (∀ (count : Nat) (b : Byte),
      exec (.rep count b) s = .next { s with u := s.u ++ List.replicate count b, q := s.q + 2 }) ∧
    exec .nop s = .next { s with q := s.q + 1 }

/-! ## PARSE -/

/-- R103: each of the ten named fields is the byte at its offset, copied unchanged, and the offsets are those of the
table. PARSE of a frame of `FRAME_LEN` bytes, 32, completes. -/
def Obligations.ParseCopiesTheTenFields : Prop :=
  (Format.source.frameLen = 32 ∧ Format.source.offsets = [6, 7, 8, 9, 10, 11, 17, 18, 19, 22]) ∧
  ∀ s : State, s.cfg.toFormat.wf = true → s.inp.length = s.cfg.frameLen →
    ∃ t f, exec .parse s = .next t ∧ t.result = ⟨.ok, 0, 0⟩ ∧ t.out = [] ∧ t.sf = some f ∧
      s.inp.bytes[s.cfg.offBattery]? = some f.battery ∧ s.inp.bytes[s.cfg.offExtError]? = some f.extError ∧
      s.inp.bytes[s.cfg.offError1]? = some f.error1 ∧ s.inp.bytes[s.cfg.offError2]? = some f.error2 ∧
      s.inp.bytes[s.cfg.offMediaWidth]? = some f.mediaWidth ∧ s.inp.bytes[s.cfg.offMediaType]? = some f.mediaType ∧
      s.inp.bytes[s.cfg.offMediaLength]? = some f.mediaLength ∧
      s.inp.bytes[s.cfg.offStatusType]? = some f.statusType ∧ s.inp.bytes[s.cfg.offPhaseType]? = some f.phaseType ∧
      s.inp.bytes[s.cfg.offNotification]? = some f.notification

/-- R102: `SF.HEADER_MISMATCH` is set exactly when the first `MAGIC_LEN` bytes, eight, differ from `MAGIC`; it is a
warning only: PARSE succeeds, and every other field is what it is when the header matches (with any other `MAGIC`). -/
def Obligations.HeaderMismatchIsAWarning : Prop :=
  Format.source.magicLen = 8 ∧
  ∀ (s : State) (other : List Byte), s.inp.length = s.cfg.frameLen →
    ∃ t t' f f', exec .parse s = .next t ∧ t.sf = some f ∧ t.result = ⟨.ok, 0, 0⟩ ∧
      (f.headerMismatch = true ↔ s.inp.bytes.take s.cfg.magicLen ≠ s.cfg.magic) ∧
      exec .parse { s with cfg := { s.cfg with magic := other } } = .next t' ∧ t'.sf = some f' ∧
      t'.result = ⟨.ok, 0, 0⟩ ∧ { f' with headerMismatch := f.headerMismatch } = f

/-- R105: `SF.BATTERY_KNOWN` is 1 exactly when the battery's byte, byte 6, is a member of `BATTERY_KNOWN`; the raw byte is
kept in both cases, and PARSE succeeds. -/
def Obligations.BatteryValidationKeepsTheByte : Prop :=
  Format.source.offBattery = 6 ∧
  ∀ s : State, s.cfg.toFormat.wf = true → s.inp.length = s.cfg.frameLen →
    ∃ t f b, exec .parse s = .next t ∧ t.result.code = .ok ∧ t.sf = some f ∧
      s.inp.bytes[s.cfg.offBattery]? = some b ∧
      f.battery = b ∧ (f.batteryKnown = true ↔ ∃ name, (b, name) ∈ s.cfg.batteryKnown)

/-- R104: `SF.STATUS_TYPE_KNOWN` likewise, for byte 18 and `STATUS_TYPE_KNOWN` (D11: the codes are open). -/
def Obligations.StatusTypeValidationKeepsTheByte : Prop :=
  Format.source.offStatusType = 18 ∧
  ∀ s : State, s.cfg.toFormat.wf = true → s.inp.length = s.cfg.frameLen →
    ∃ t f b, exec .parse s = .next t ∧ t.result.code = .ok ∧ t.sf = some f ∧
      s.inp.bytes[s.cfg.offStatusType]? = some b ∧
      f.statusType = b ∧ (f.statusTypeKnown = true ↔ ∃ name, (b, name) ∈ s.cfg.statusTypeKnown)

/-- R101: any length but `FRAME_LEN`, 32, gives `WrongLength`, no byte is interpreted, `SF` is empty, and nothing else
changes but `OUT`, `RESULT` and the end of the operation. -/
def Obligations.ParseRejectsEveryOtherLength : Prop :=
  Format.source.frameLen = 32 ∧ causeCode .wrongLength = 6#3 ∧
  ∀ s : State, s.inp.length ≠ s.cfg.frameLen →
    exec .parse s = .next
      { s with
        sf := none, out := [], result := ⟨.wrongLength, 0, s.inp.length⟩, activity := .idle, u := [], q := 0, n := 0 }

/-- R108 (D22): two frames that differ in the unnamed bytes only, those behind the header that no offset names, give
equal records. -/
def Obligations.ParseIgnoresTheUnnamedBytes : Prop :=
  ∀ s s' t t' : State, s.cfg = s'.cfg → s.inp.length = s.cfg.frameLen → s'.inp.length = s.cfg.frameLen →
    (∀ i, (i < s.cfg.magicLen ∨ i ∈ s.cfg.offsets) → s.inp.bytes[i]? = s'.inp.bytes[i]?) →
    exec .parse s = .next t → exec .parse s' = .next t' → t.sf = t'.sf

/-- R107 (D13): the class in `SF` is what CLASSIFY gives for the frame's two error bytes, whatever its status type. -/
def Obligations.ParseAndClassifyAgree : Prop :=
  ∀ s t t' : State, ∀ f, s.inp.length = s.cfg.frameLen → exec .parse s = .next t → t.sf = some f →
    exec (.classify f.error1 f.error2) s = .next t' → t'.cls = some ⟨f.errClass, f.error1, f.error2⟩

/-! ## CLASSIFY -/

/-- R115, R116 with the tables of R59 (D12, D13): the nine rows in order, what CLASSIFY writes, and that it changes
nothing else. -/
def Obligations.ClassifyFollowsTheTable : Prop :=
  ∀ (s : State) (e1 e2 : Byte), s.cfg.e1Flags = Config.defaultE1Flags → s.cfg.e2Flags = Config.defaultE2Flags →
    exec (.classify e1 e2) s = .next
      { s with
        cls := some
          ⟨if e1.getLsbD 0 then .noMedia else if e1.getLsbD 1 then .endOfMedia else if e1.getLsbD 2 then .tapeCutJam
            else if e2.getLsbD 0 then .replaceMedia else if e2.getLsbD 1 then .bufferFull
            else if e2.getLsbD 2 then .transmissionError else if e2.getLsbD 3 then .transmissionBufferFull
            else if e2.getLsbD 4 then .coverOpen else .unknown, e1, e2⟩
        out := [], result := ⟨.ok, 0, 0⟩, activity := .idle, u := [], q := 0, n := 0 }

/-- R118, with the flag test of R117 (D13; log 29): every flag of error byte 1 outranks every flag of error byte 2, within a byte the table order decides, one
class is returned and the raw bytes stay in `CLASS`; the source's example, 0x01 and 0x10, gives no-media. For every
configuration. -/
def Obligations.ClassifyPriority : Prop :=
  (∀ (s : State) (e1 e2 mask : Byte) (cls : ErrClass) (before after : List (Byte × ErrClass)),
    s.cfg.e1Flags = before ++ (mask, cls) :: after → (∀ f ∈ before, e1 &&& f.1 = 0#8) → e1 &&& mask ≠ 0#8 →
    ∃ t, exec (.classify e1 e2) s = .next t ∧ t.cls = some ⟨cls, e1, e2⟩) ∧
  (∀ (s : State) (e1 e2 mask : Byte) (cls : ErrClass) (before after : List (Byte × ErrClass)),
    (∀ f ∈ s.cfg.e1Flags, e1 &&& f.1 = 0#8) →
    s.cfg.e2Flags = before ++ (mask, cls) :: after → (∀ f ∈ before, e2 &&& f.1 = 0#8) → e2 &&& mask ≠ 0#8 →
    ∃ t, exec (.classify e1 e2) s = .next t ∧ t.cls = some ⟨cls, e1, e2⟩) ∧
  (∀ s : State, s.cfg.e1Flags = Config.defaultE1Flags →
    ∃ t, exec (.classify 0x01#8 0x10#8) s = .next t ∧ t.cls = some ⟨.noMedia, 0x01#8, 0x10#8⟩)

/-- R119 (D13): when no flag of either table matches, CLASSIFY succeeds with `Unknown` carrying both raw bytes. -/
def Obligations.ClassifyWithoutAMatchIsUnknown : Prop :=
  ∀ (s : State) (e1 e2 : Byte),
    (∀ f ∈ s.cfg.e1Flags, e1 &&& f.1 = 0#8) → (∀ f ∈ s.cfg.e2Flags, e2 &&& f.1 = 0#8) →
    ∃ t, exec (.classify e1 e2) s = .next t ∧ t.result = ⟨.ok, 0, 0⟩ ∧ t.cls = some ⟨.unknown, e1, e2⟩ ∧
      classCode .unknown = 0#4

/-! ## Frames and errors -/

/-- What ENCODE, DECODE, PARSE, CLASSIFY and an illegal stream opcode leave unchanged when they go on: the
configuration, every byte of `IN`, the host's side; `SF` unless PARSE, `CLASS` unless CLASSIFY; `LINE` and `K` unless
the codec's operations, `POS` unless DECODE or the illegal opcode that ends one (R10 to R13, R16, R18, R20, R30). `OUT`
and `RESULT` are what an operation writes. -/
def Obligations.OperationFrame : Prop :=
  ∀ (i : Instr) (s t : State), exec i s = .next t →
    (i = .encode ∨ i = .decode ∨ i = .parse ∨ (∃ e1 e2, i = .classify e1 e2) ∨ ∃ b, i = .illegalStreamOpcode b) →
    t.cfg = s.cfg ∧ (∀ a, t.inp.read a = s.inp.read a) ∧ t.host = s.host ∧ t.job = s.job ∧ t.started = s.started ∧
    t.activity = .idle ∧
    (i ≠ .parse → t.sf = s.sf) ∧ ((∀ e1 e2, i ≠ .classify e1 e2) → t.cls = s.cls) ∧
    ((i = .parse ∨ ∃ e1 e2, i = .classify e1 e2) →
      t.line = s.line ∧ t.k = s.k ∧ t.fresh = s.fresh ∧ t.out = []) ∧
    ((i = .encode ∨ i = .parse ∨ ∃ e1 e2, i = .classify e1 e2) → t.pos = s.pos)

/-- What XFER leaves unchanged when its line is accepted: every byte of `OUT` below the old length and every byte of
`IN`, and everything but `LINE`, `OUT`, `K` and `POS`; the new bytes are the line's (R85, R88). -/
def Obligations.XferFrame : Prop :=
  ∀ (payload : List Byte) (s t : State), s.out.wf → s.activity ≠ .idle → exec (.xfer payload) s = .next t →
    t.activity ≠ .idle →
    (∀ a, a < s.out.length → t.out.read a = s.out.read a) ∧
    (∀ a, s.out.length ≤ a → t.out.read a = t.line[a - s.out.length]?) ∧
    (∀ a, t.inp.read a = s.inp.read a) ∧
    t.cfg = s.cfg ∧ t.u = s.u ∧ t.q = s.q ∧ t.n = s.n ∧ t.result = s.result ∧ t.sf = s.sf ∧ t.cls = s.cls ∧
    t.activity = s.activity ∧ t.started = s.started ∧ t.fresh = s.fresh ∧ t.host = s.host ∧ t.job = s.job

/-- R155 (D9): after an error of an operation `OUT` is empty, the block is idle, `CLASS`, `IN` and the configuration are
unchanged, and `SF` is unchanged unless the error is `WrongLength`, which empties it; FramingError is DECODE's,
`WrongLength` PARSE's, `PartialLine` ENCODE's, and CLASSIFY raises nothing (R151). -/
def Obligations.ErrorsDeliverNothing : Prop :=
  ∀ (i : Instr) (s t : State), exec i s = .next t → t.result.code ≠ .ok →
    (i = .encode ∨ i = .decode ∨ i = .parse ∨ ∃ e1 e2, i = .classify e1 e2) →
    t.out = [] ∧ t.activity = .idle ∧ t.cls = s.cls ∧ t.inp = s.inp ∧ t.cfg = s.cfg ∧
    t.sf = (if t.result.code = .wrongLength then none else s.sf) ∧
    ((i = .encode ∧ t.result.code = .partialLine) ∨ (i = .decode ∧ isFramingError t.result.code = true) ∨
      (i = .parse ∧ t.result.code = .wrongLength))

/-- The operations over a byte space: an append keeps the canonical form, leaves every byte before it alone, and reads
back as what was appended; a space has no byte at or above its length (R9, R20, R37). -/
def Obligations.AppendReadsBack : Prop :=
  ∀ (m : Memory) (v : List Byte) (a : Nat), m.wf →
    (memAppend m v).wf ∧ (memAppend m v).length = m.length + v.length ∧
    (memAppend m v).read a = (if a < m.length then m.read a else v[a - m.length]?) ∧
    (m.length ≤ a → m.read a = none)

/-! ## The host's wire commands -/

/-- R126, R127, R129, R132 to R135, R137: each of eight commands is exactly its bytes, written to the transport behind
what was written before, FLUSH with any number of zero bytes (log 19); that a write takes all its bytes and answers with
their number is the model's choice (log 15); the margin is the feed margin, low byte first. The
block is left alone. -/
def Obligations.CommandsWriteTheirBytes : Prop :=
  ∀ s : State, CanWrite s →
    (∀ mode, Writes (.enterRaster mode) s [0x1B#8, 0x69#8, 0x61#8, mode]) ∧
    Writes .initPrinter s [0x1B#8, 0x40#8] ∧
    (∀ count, Writes (.flush count) s (List.replicate count 0x00#8)) ∧
    (∀ flags, Writes (.setModeFlags flags) s [0x1B#8, 0x69#8, 0x4D#8, flags]) ∧
    (∀ flags, Writes (.setExpandedMode flags) s [0x1B#8, 0x69#8, 0x4B#8, flags]) ∧
    (∀ lo hi, Writes (.setMargin lo hi) s [0x1B#8, 0x69#8, 0x64#8, lo, hi]) ∧
    (∀ margin : BitVec 16, ∃ lo hi, marginCommand margin = .setMargin lo hi ∧
      margin.toNat = lo.toNat + 256 * hi.toNat) ∧
    Writes .setCompression s [0x4D#8, 0x02#8] ∧
    Writes .printAndFeed s [0x1A#8]

/-- R130 (log 18): SET_MEDIA_FORMAT is its three bytes and its operand bytes, which the job remembers (log 33); that the
write takes all of them and answers with their number is the model's choice (log 15). -/
def Obligations.MediaFormatWritesItsOperands : Prop :=
  ∀ (s : State) (flags : List Byte), CanWrite s →
    Writes (.setMediaFormat flags) s (0x1B#8 :: 0x69#8 :: 0x7A#8 :: flags) ∧
    ∀ t, exec (.setMediaFormat flags) s = .next t → t.job.media = some flags

/-- R128, R142 (logs 13, 14, 15, 17): QUERY_STATUS writes its three bytes, reads `FRAME_LEN` bytes of what waits, hands
them to PARSE as `IN`, and moves the job to the state of its step or marks the order as broken; and a read of `n` bytes
of a stream gives exactly `n` and loses none. -/
def Obligations.QueryStatusHandsTheReplyOver : Prop :=
  (∀ (s : State) (bs : List Byte) (rest : List Reply), CanWrite s →
    readExact s.cfg.frameLen [] s.job.inbox = .done bs rest → bs.length ≤ s.cfg.maxBytes →
    ∃ t, exec .queryStatus s = .next t ∧ t.job.wire = s.job.wire ++ [0x1B#8, 0x69#8, 0x53#8] ∧
      t.job.written = some 3 ∧ t.inp = Memory.ofBytes bs ∧ t.job.query = .read bs ∧ t.job.inbox = rest ∧ t.job.failure = s.job.failure ∧
      t.job.link = .up ∧ t.host = s.host ∧ SameBlock { s with inp := t.inp } t ∧
      (expectedStep s.job.cursor = some .queryStatus →
        t.job.cursor = s.job.cursor + 1 ∧ t.job.stage = stageAt (s.job.cursor + 1) ∧
        t.job.reordered = s.job.reordered) ∧
      (expectedStep s.job.cursor ≠ some .queryStatus →
        t.job.cursor = s.job.cursor ∧ t.job.stage = s.job.stage ∧ t.job.reordered = true)) ∧
  ∀ (inbox rest : List Reply) (n : Nat) (bs : List Byte), (∀ w, Reply.whole w ∉ inbox) →
    readExact n [] inbox = .done bs rest → bs.length = n ∧ bs ++ dataOf rest = dataOf inbox

/-- R139, R140 (logs 13, 14, 15, 34): where too few bytes wait, the read of QUERY_STATUS times out, and where an error
waits it fails; in both cases the job fails in the state its step belongs to, QueryingStatus when QUERY_STATUS was next
and the job's own when it was not, the sequence is aborted, and the block is unchanged. -/
def Obligations.QueryStatusReadErrorsFailTheJob : Prop :=
  ∀ s : State, CanWrite s →
    (readExact s.cfg.frameLen [] s.job.inbox = .timedOut →
      ∃ t, exec .queryStatus s = .next t ∧ Failed (stageOf .queryStatus s.job) .timeout s t ∧ SameBlock s t) ∧
    (∀ rest, readExact s.cfg.frameLen [] s.job.inbox = .failed rest →
      ∃ t, exec .queryStatus s = .next t ∧ Failed (stageOf .queryStatus s.job) .readFailed s t ∧
        t.job.inbox = rest ∧ SameBlock s t) ∧
    (s.job.cursor = 2 → stageOf .queryStatus s.job = .queryingStatus) ∧
    (s.job.cursor ≠ 2 → stageOf .queryStatus s.job = s.job.stage)

/-- R138 to R140 (logs 13, 14): a command that is next in the order of R138 moves the job to the state of that step; any
other is written all the same and marks the order as broken. (QUERY_STATUS: QueryStatusHandsTheReplyOver.) -/
def Obligations.CommandsMoveTheJobOn : Prop :=
  ∀ (i : Instr) (st : JobStep) (s : State), commandStep i = some st → i ≠ .queryStatus → CanWrite s →
    ∃ t, exec i s = .next t ∧
      (expectedStep s.job.cursor = some st →
        t.job.cursor = s.job.cursor + 1 ∧ t.job.stage = stageAt (s.job.cursor + 1) ∧
        t.job.reordered = s.job.reordered) ∧
      (expectedStep s.job.cursor ≠ some st →
        t.job.cursor = s.job.cursor ∧ t.job.stage = s.job.stage ∧ t.job.reordered = true)

/-- R139, R140 (logs 13, 14, 15, 16, 34): when the link is down a command fails the job with the write error, and when
the device holds it back with a timeout, in the state its step belongs to, having written some prefix of its bytes; the
sequence is aborted. A job that is over writes nothing. -/
def Obligations.WriteErrorsFailTheJob : Prop :=
  ∀ (i : Instr) (st : JobStep) (s : State), commandStep i = some st →
    (∀ e, jobOver s.job = false → (s.job.link = .down ∧ e = .writeFailed) ∨ (s.job.link = .stalled ∧ e = .timeout) →
      ∃ t k, exec i s = .next t ∧ Failed (stageOf st s.job) e s t ∧
        t.job.wire = s.job.wire ++ (commandBytes i).take k ∧ t.job.written = none ∧ SameBlock s t) ∧
    (jobOver s.job = true → exec i s = .next s)

/-- What the ten commands leave unchanged when they go on: the block, but for the `IN` that QUERY_STATUS's reply is
handed to; what was on the wire stays there; the moves to come, unless the command fails the job, which aborts them
(R139; log 34). -/
def Obligations.CommandFrame : Prop :=
  ∀ (i : Instr) (st : JobStep) (s t : State), commandStep i = some st → exec i s = .next t →
    SameBlock { s with inp := t.inp } t ∧ (i ≠ .queryStatus → t.inp = s.inp) ∧ s.job.wire <+: t.job.wire ∧
    t.job.name = s.job.name ∧ t.job.final = s.job.final ∧ t.job.log = s.job.log ∧
    (i ≠ .queryStatus → t.job.query = s.job.query) ∧
    (t.host = s.host ∨ (t.job.stage = .failed ∧ t.host = abortSequence s.host))

/-- R138 (S2 of 95_test_vectors.md, as corrected by 90_conflicts.md C1; logs 12, 13, 15, 17, 25, 26, 33, 35, 37): a print
job, restarted from whatever the last one left and its transport opened in `Idle` (the model's choice, log 26), whose two
reads go well, writes its commands in the
order of R138, the ENCODE of the bitmap among them with as many packets as its media format announced, and ends in
`Closed` with the transport released. The status asked for first is decoded and logged, whatever it says, and does not
abort the job, and the final one is logged too (R109). The final frame is the last reply's, and the job's outcome is what that frame says,
or unknown when the reply had the wrong length (R109, R157). The values of `mode`, of the media items and of the two flag
bytes are not in the source (N12); the statement holds for all. -/
def Obligations.PrintJobRunsInOrder : Prop :=
  ∀ (s : State) (mode : Byte) (m : MediaFormat) (pc : PrintConfig) (bitmap first last : List Byte)
    (mid rest : List Reply) (moves : List Move) (name : String) (ch : Channel),
    s.cfg.wf = true → s.activity = .idle → jobMoves s.cfg mode m pc bitmap = some moves →
    s.host = .startJob :: .openTransport name ch :: moves → opens ch = true →
    readExact s.cfg.frameLen [] s.job.inbox = .done first mid → readExact s.cfg.frameLen [] mid = .done last rest →
    first.length ≤ s.cfg.maxBytes → last.length ≤ s.cfg.maxBytes → bitmap.length ≤ s.cfg.maxBytes →
    bitmap.length % s.cfg.L = 0 →
    (encodeStream s.cfg (Memory.ofBytes bitmap)).length ≤ s.cfg.maxBytes →
    ∃ t lo hi, Host.Core.run Sys2Proof.core 23 s = .next t ∧
      t.job.stage = .closed ∧ t.job.reordered = false ∧ t.job.miscounted = false ∧ t.job.failure = none ∧
      t.job.link = .down ∧ t.job.name = name ∧ t.job.inbox = rest ∧ t.host = [] ∧
      t.job.query = .decoded (parseReply s.cfg first) ∧
      t.job.log = s.job.log ++ statusEntries first.length (parseReply s.cfg first) ++
        statusEntries last.length (parseReply s.cfg last) ∧
      pc.feedMargin.toNat = lo.toNat + 256 * hi.toNat ∧
      t.job.wire =
        [0x1B#8, 0x69#8, 0x61#8, mode] ++ [0x1B#8, 0x40#8] ++ [0x1B#8, 0x69#8, 0x53#8] ++
        List.replicate 64 0x00#8 ++ [0x1B#8, 0x40#8] ++ [0x1B#8, 0x69#8, 0x61#8, mode] ++
        ([0x1B#8, 0x69#8, 0x7A#8] ++ mediaOperands s.cfg m bitmap.length) ++
        [0x1B#8, 0x69#8, 0x4B#8, flagByte .expanded pc] ++
        [0x1B#8, 0x69#8, 0x4D#8, flagByte .mode pc] ++ [0x1B#8, 0x69#8, 0x64#8, lo, hi] ++
        [0x4D#8, 0x02#8] ++ encodeStream s.cfg (Memory.ofBytes bitmap) ++ [0x1A#8] ++ [0x1B#8, 0x40#8] ∧
      (last.length = s.cfg.frameLen → t.sf = some (parseFrame s.cfg last) ∧
        jobOutcome t =
          if (parseFrame s.cfg last).error1 = 0#8 ∧ (parseFrame s.cfg last).error2 = 0#8 then
            .status (parseFrame s.cfg last)
          else .deviceError (parseFrame s.cfg last).errClass (parseFrame s.cfg last)) ∧
      (last.length ≠ s.cfg.frameLen → t.sf = none ∧ jobOutcome t = .unknownOutcome)

/-- R81, R130, R131 (log 33): the raster-line count of the media format, which its operand bytes carry low byte first,
is the number of packets ENCODE emits, for a bitmap of at most 65535 lines; a longer one has no job. -/
def Obligations.LineCountIsThePacketCount : Prop :=
  ∀ (c : Config) (m : Memory),
    (m.length / c.L ≤ 65535 →
      ∃ lo hi, lineCountBytes c m.length = [lo, hi] ∧
        (∀ mf, announcedLines (mediaOperands c mf m.length) = some (lo.toNat + 256 * hi.toNat)) ∧
        ∃ payloads, encodeStream c m = packetStream c.toFormat payloads ∧
          payloads.length = lo.toNat + 256 * hi.toNat) ∧
    ∀ mode mf pc bitmap, jobMoves c mode mf pc bitmap = none ↔ 65535 < bitmap.length / c.L

/-- R142, R157 (logs 26, 34): the service lookup is tried ten times: it succeeds exactly when one of the first ten finds
the service. A Bluetooth transport whose lookups find no service fails to open with the error "service not found"; one
whose lookups do, and a serial one, opens when its channel does and has the open error otherwise. Opening the transport
of a job that is not over then puts the link up under the transport's name, or fails the job with that error. -/
def Obligations.ConnectTriesTenTimes : Prop :=
  (∀ lookups : List Bool, (connect lookups).isSome = true ↔ ∃ i, i < 10 ∧ lookups[i]? = some true) ∧
  (∀ ok : Bool, openError (.serial ok) = if ok then none else some .openFailed) ∧
  (∀ (lookups : List Bool) (ok : Bool),
    (openError (.bluetooth lookups ok) = some .serviceNotFound ↔ ∀ i, i < 10 → lookups[i]? ≠ some true) ∧
    ((∃ i, i < 10 ∧ lookups[i]? = some true) →
      openError (.bluetooth lookups ok) = if ok then none else some .openFailed)) ∧
  (∀ ch, opens ch = true ↔ openError ch = none) ∧
  ∀ (s : State) (rest : List Move) (name : String) (ch : Channel), s.activity = .idle →
    s.host = .openTransport name ch :: rest → jobOver s.job = false →
    ∃ t, step s = .next t ∧ SameBlock s t ∧
      (openError ch = none → t.host = rest ∧ t.job = { s.job with link := .up, name := name }) ∧
      (∀ e, openError ch = some e → Failed s.job.stage e { s with host := rest } t)

/-- R141, R132, R133 (log 25): whatever the places of the fields are, a flag byte depends only on the fields whose place
is in it, and where no two fields share a place each such field sets its own bit. -/
def Obligations.FlagBytesCarryTheirFields : Prop :=
  ∀ (place : Toggle → BitPlace) (fb : FlagByte) (pc : PrintConfig) (base : Byte),
    (∀ pc' : PrintConfig, (∀ t, (place t).byte = fb → toggleOf pc t = toggleOf pc' t) →
      setFlagBits place fb pc toggles base = setFlagBits place fb pc' toggles base) ∧
    ((∀ t t', (place t).byte = (place t').byte → (place t).bit = (place t').bit → t = t') →
      ∀ t, (place t).byte = fb →
        (setFlagBits place fb pc toggles base).getLsbD (place t).bit = (toggleOf pc t == (place t).whenOn))
end

