-- ==== Sys2Proof/Laws/Encoding.lean ====
section
/-! SUPPORT. The length field of a packet: reading and writing it are inverse, and with the source's two bytes they are
`le16`, `lo8` and `hi8`. -/

namespace Sys2Proof

@[simp] theorem leBytes_length (n v : Nat) : (leBytes n v).length = n := by
  induction n generalizing v with
  | zero => rfl
  | succ n ih => simp [leBytes, ih]

theorem lo8_toNat (v : Nat) : (lo8 v).toNat = v % 256 := by
  simp [lo8]

theorem hi8_toNat (v : Nat) : (hi8 v).toNat = v / 256 % 256 := by
  simp [hi8]

/-- Reading what was written gives the number back, where the field has room for it. -/
theorem leNat_leBytes (n v : Nat) (h : v < 256 ^ n) : leNat (leBytes n v) = v := by
  induction n generalizing v with
  | zero => simp [leBytes, leNat] at *; omega
  | succ n ih =>
    rw [Nat.pow_succ] at h
    rw [leBytes, leNat, ih _ (by omega), lo8_toNat]
    omega

/-- A field of `n` bytes holds a number below `256 ^ n`. -/
theorem leNat_lt (bs : List Byte) : leNat bs < 256 ^ bs.length := by
  induction bs with
  | nil => simp [leNat]
  | cons b bs ih =>
    have hb := b.isLt
    rw [leNat, List.length_cons, Nat.pow_succ]
    omega

/-- Writing what was read gives the field back. -/
theorem leBytes_leNat (bs : List Byte) : leBytes bs.length (leNat bs) = bs := by
  induction bs with
  | nil => rfl
  | cons b bs ih =>
    have hb := b.isLt
    rw [List.length_cons, leNat, leBytes]
    congr 1
    · apply BitVec.eq_of_toNat_eq
      rw [lo8_toNat]
      omega
    · rw [show (b.toNat + 256 * leNat bs) / 256 = leNat bs by omega, ih]

/-- R33: two bytes are `le16`. -/
theorem leNat_pair (lo hi : Byte) : leNat [lo, hi] = le16 lo hi := by
  simp [leNat, le16]

/-- R74: two bytes are `lo8` and `hi8`. -/
theorem leBytes_two (v : Nat) : leBytes 2 v = [lo8 v, hi8 v] := rfl

theorem wrapPacket_length (p : Format) (payload : List Byte) :
    (wrapPacket p payload).length = 1 + p.lenBytes + payload.length := by
  simp [wrapPacket]; omega

/-- A packet in front of a stream is read whole. -/
theorem readPacket_wrapPacket (p : Format) (payload rest : List Byte) (h : payload.length < 256 ^ p.lenBytes) :
    readPacket p (wrapPacket p payload ++ rest) = .packet payload rest := by
  have ht : (leBytes p.lenBytes payload.length ++ (payload ++ rest)).take p.lenBytes =
      leBytes p.lenBytes payload.length := List.take_left' (leBytes_length _ _)
  have hd : (leBytes p.lenBytes payload.length ++ (payload ++ rest)).drop p.lenBytes = payload ++ rest :=
    List.drop_left' (leBytes_length _ _)
  unfold wrapPacket
  rw [List.cons_append, List.append_assoc]
  simp only [readPacket, ht, hd, leNat_leBytes _ _ h]
  simp

end Sys2Proof
end

