-- ==== Sys2Proof/Laws/Memory.lean ====
section
/-! SUPPORT. The byte spaces: every operation keeps the canonical form, a read after an append gives what was appended
and leaves every other offset alone. -/

namespace Sys2Proof.Machine

open Sys2Proof

@[simp] theorem Memory.length_ofBytes (bs : List Byte) : (Memory.ofBytes bs).length = bs.length := by
  simp [Memory.ofBytes]

@[simp] theorem Memory.length_bytes (m : Memory) : m.bytes.length = m.length := by
  simp [Memory.bytes]

@[simp] theorem Memory.bytes_ofBytes (bs : List Byte) : (Memory.ofBytes bs).bytes = bs := by
  simp [Memory.ofBytes, Memory.bytes, List.map_snd_zip]

@[simp] theorem Memory.bytes_nil : Memory.bytes [] = [] := rfl

@[simp] theorem Memory.ofBytes_nil : Memory.ofBytes [] = [] := rfl

/-- Every space made from bytes is canonical. -/
theorem Memory.wf_ofBytes (bs : List Byte) : Memory.wf (Memory.ofBytes bs) := by
  simp [Memory.wf, Memory.ofBytes, List.map_fst_zip]

theorem Memory.wf_nil : Memory.wf [] := rfl

/-- A canonical space is determined by its bytes. -/
theorem Memory.ofBytes_bytes {m : Memory} (h : m.wf) : Memory.ofBytes m.bytes = m := by
  unfold Memory.ofBytes Memory.bytes
  rw [List.length_map, ← h]
  exact (List.zip_of_prod rfl rfl).symm

/-- Two canonical spaces with the same bytes are equal. -/
theorem Memory.ext_bytes {m m' : Memory} (h : m.wf) (h' : m'.wf) (hb : m.bytes = m'.bytes) : m = m' := by
  rw [← Memory.ofBytes_bytes h, ← Memory.ofBytes_bytes h', hb]

theorem Memory.read_zip_range' (bs : List Byte) :
    ∀ start a, Memory.read ((List.range' start bs.length).zip bs) (start + a) = bs[a]? := by
  induction bs with
  | nil => intro start a; simp [Memory.read]
  | cons b bs ih =>
    intro start a
    cases a with
    | zero => simp [List.range'_succ, Memory.read]
    | succ a =>
      have h := ih (start + 1) a
      rw [Nat.add_right_comm, Nat.add_assoc] at h
      simpa [List.range'_succ, Memory.read] using h

/-- Reading one byte of the space made from `bs`. -/
@[simp] theorem Memory.read_ofBytes (bs : List Byte) (a : Nat) : (Memory.ofBytes bs).read a = bs[a]? := by
  have h := Memory.read_zip_range' bs 0 a
  simpa [Memory.ofBytes, List.range_eq_range'] using h

/-- Reading one byte of a canonical space. -/
theorem Memory.read_eq {m : Memory} (h : m.wf) (a : Nat) : m.read a = m.bytes[a]? := by
  conv_lhs => rw [← Memory.ofBytes_bytes h]
  simp

@[simp] theorem memAppend_bytes (m : Memory) (v : List Byte) : (memAppend m v).bytes = m.bytes ++ v := by
  simp [memAppend]

@[simp] theorem memAppend_length (m : Memory) (v : List Byte) : (memAppend m v).length = m.length + v.length := by
  simp [memAppend]

/-- An append gives a canonical space. -/
theorem memAppend_wf (m : Memory) (v : List Byte) : (memAppend m v).wf := Memory.wf_ofBytes _

/-- A write gives a canonical space. -/
theorem memWrite_wf (m : Memory) (addr : Nat) (v : List Byte) : (memWrite m addr v).wf := Memory.wf_ofBytes _

/-- A write inside a space keeps its length. -/
theorem memWrite_length (m : Memory) (addr : Nat) (v : List Byte) (h : addr + v.length ≤ m.length) :
    (memWrite m addr v).length = m.length := by
  simp [memWrite]; omega

/-- A read of the bytes a write inside a space wrote gives them back. -/
theorem memRead_memWrite (m : Memory) (addr : Nat) (v : List Byte) (h : addr + v.length ≤ m.length) :
    memRead (memWrite m addr v) addr v.length = v := by
  have ha : (m.bytes.take addr).length = addr := by simp; omega
  unfold memRead memWrite
  rw [Memory.bytes_ofBytes, List.append_assoc, List.drop_append_of_le_length (by omega), List.drop_of_length_le (by omega),
    List.nil_append, List.take_left']
  rfl

theorem memRead_length (m : Memory) (addr n : Nat) : (memRead m addr n).length = min n (m.length - addr) := by
  simp [memRead]

@[simp] theorem freeLine_length (len draw : Nat) : (freeLine len draw).length = len := by
  simp [freeLine]

end Sys2Proof.Machine
end

