-- ==== Sys2Proof/Laws/State.lean ====
section
/-! SUPPORT. One lemma per field per named update of the state, so that no proof unfolds a record update. -/

namespace Sys2Proof.Machine

open Sys2Proof

/-! ## finish -/

@[simp] theorem finish_cfg (r : Result) (s : State) :
    (finish r s).cfg = s.cfg := rfl
@[simp] theorem finish_inp (r : Result) (s : State) :
    (finish r s).inp = s.inp := rfl
@[simp] theorem finish_out (r : Result) (s : State) :
    (finish r s).out = s.out := rfl
@[simp] theorem finish_line (r : Result) (s : State) :
    (finish r s).line = s.line := rfl
@[simp] theorem finish_k (r : Result) (s : State) :
    (finish r s).k = s.k := rfl
@[simp] theorem finish_pos (r : Result) (s : State) :
    (finish r s).pos = s.pos := rfl
@[simp] theorem finish_u (r : Result) (s : State) :
    (finish r s).u = [] := rfl
@[simp] theorem finish_q (r : Result) (s : State) :
    (finish r s).q = 0 := rfl
@[simp] theorem finish_n (r : Result) (s : State) :
    (finish r s).n = 0 := rfl
@[simp] theorem finish_result (r : Result) (s : State) :
    (finish r s).result = r := rfl
@[simp] theorem finish_sf (r : Result) (s : State) :
    (finish r s).sf = s.sf := rfl
@[simp] theorem finish_cls (r : Result) (s : State) :
    (finish r s).cls = s.cls := rfl
@[simp] theorem finish_activity (r : Result) (s : State) :
    (finish r s).activity = .idle := rfl
@[simp] theorem finish_started (r : Result) (s : State) :
    (finish r s).started = s.started := rfl
@[simp] theorem finish_fresh (r : Result) (s : State) :
    (finish r s).fresh = s.fresh := rfl
@[simp] theorem finish_host (r : Result) (s : State) :
    (finish r s).host = s.host := rfl
@[simp] theorem finish_job (r : Result) (s : State) :
    (finish r s).job = s.job := rfl

/-! ## raise -/

@[simp] theorem raise_cfg (c : Cause) (pos aux : Nat) (s : State) :
    (raise c pos aux s).cfg = s.cfg := rfl
@[simp] theorem raise_inp (c : Cause) (pos aux : Nat) (s : State) :
    (raise c pos aux s).inp = s.inp := rfl
@[simp] theorem raise_out (c : Cause) (pos aux : Nat) (s : State) :
    (raise c pos aux s).out = [] := rfl
@[simp] theorem raise_line (c : Cause) (pos aux : Nat) (s : State) :
    (raise c pos aux s).line = s.line := rfl
@[simp] theorem raise_k (c : Cause) (pos aux : Nat) (s : State) :
    (raise c pos aux s).k = s.k := rfl
@[simp] theorem raise_pos (c : Cause) (pos aux : Nat) (s : State) :
    (raise c pos aux s).pos = s.pos := rfl
@[simp] theorem raise_u (c : Cause) (pos aux : Nat) (s : State) :
    (raise c pos aux s).u = [] := rfl
@[simp] theorem raise_q (c : Cause) (pos aux : Nat) (s : State) :
    (raise c pos aux s).q = 0 := rfl
@[simp] theorem raise_n (c : Cause) (pos aux : Nat) (s : State) :
    (raise c pos aux s).n = 0 := rfl
@[simp] theorem raise_result (c : Cause) (pos aux : Nat) (s : State) :
    (raise c pos aux s).result = ⟨c, pos, aux⟩ := rfl
@[simp] theorem raise_sf (c : Cause) (pos aux : Nat) (s : State) :
    (raise c pos aux s).sf = s.sf := rfl
@[simp] theorem raise_cls (c : Cause) (pos aux : Nat) (s : State) :
    (raise c pos aux s).cls = s.cls := rfl
@[simp] theorem raise_activity (c : Cause) (pos aux : Nat) (s : State) :
    (raise c pos aux s).activity = .idle := rfl
@[simp] theorem raise_started (c : Cause) (pos aux : Nat) (s : State) :
    (raise c pos aux s).started = s.started := rfl
@[simp] theorem raise_fresh (c : Cause) (pos aux : Nat) (s : State) :
    (raise c pos aux s).fresh = s.fresh := rfl
@[simp] theorem raise_host (c : Cause) (pos aux : Nat) (s : State) :
    (raise c pos aux s).host = s.host := rfl
@[simp] theorem raise_job (c : Cause) (pos aux : Nat) (s : State) :
    (raise c pos aux s).job = s.job := rfl

/-! ## forgetLine -/

@[simp] theorem forgetLine_cfg (s : State) :
    (forgetLine s).cfg = s.cfg := rfl
@[simp] theorem forgetLine_inp (s : State) :
    (forgetLine s).inp = s.inp := rfl
@[simp] theorem forgetLine_out (s : State) :
    (forgetLine s).out = s.out := rfl
@[simp] theorem forgetLine_line (s : State) :
    (forgetLine s).line = freeLine s.cfg.L s.fresh := rfl
@[simp] theorem forgetLine_k (s : State) :
    (forgetLine s).k = Config.freeNat s.fresh := rfl
@[simp] theorem forgetLine_pos (s : State) :
    (forgetLine s).pos = s.pos := rfl
@[simp] theorem forgetLine_u (s : State) :
    (forgetLine s).u = s.u := rfl
@[simp] theorem forgetLine_q (s : State) :
    (forgetLine s).q = s.q := rfl
@[simp] theorem forgetLine_n (s : State) :
    (forgetLine s).n = s.n := rfl
@[simp] theorem forgetLine_result (s : State) :
    (forgetLine s).result = s.result := rfl
@[simp] theorem forgetLine_sf (s : State) :
    (forgetLine s).sf = s.sf := rfl
@[simp] theorem forgetLine_cls (s : State) :
    (forgetLine s).cls = s.cls := rfl
@[simp] theorem forgetLine_activity (s : State) :
    (forgetLine s).activity = s.activity := rfl
@[simp] theorem forgetLine_started (s : State) :
    (forgetLine s).started = s.started := rfl
@[simp] theorem forgetLine_fresh (s : State) :
    (forgetLine s).fresh = s.fresh + 1 := rfl
@[simp] theorem forgetLine_host (s : State) :
    (forgetLine s).host = s.host := rfl
@[simp] theorem forgetLine_job (s : State) :
    (forgetLine s).job = s.job := rfl

/-! ## forgetCursor -/

@[simp] theorem forgetCursor_cfg (s : State) :
    (forgetCursor s).cfg = s.cfg := rfl
@[simp] theorem forgetCursor_inp (s : State) :
    (forgetCursor s).inp = s.inp := rfl
@[simp] theorem forgetCursor_out (s : State) :
    (forgetCursor s).out = s.out := rfl
@[simp] theorem forgetCursor_line (s : State) :
    (forgetCursor s).line = s.line := rfl
@[simp] theorem forgetCursor_k (s : State) :
    (forgetCursor s).k = s.k := rfl
@[simp] theorem forgetCursor_pos (s : State) :
    (forgetCursor s).pos = Config.freeNat s.fresh := rfl
@[simp] theorem forgetCursor_u (s : State) :
    (forgetCursor s).u = s.u := rfl
@[simp] theorem forgetCursor_q (s : State) :
    (forgetCursor s).q = s.q := rfl
@[simp] theorem forgetCursor_n (s : State) :
    (forgetCursor s).n = s.n := rfl
@[simp] theorem forgetCursor_result (s : State) :
    (forgetCursor s).result = s.result := rfl
@[simp] theorem forgetCursor_sf (s : State) :
    (forgetCursor s).sf = s.sf := rfl
@[simp] theorem forgetCursor_cls (s : State) :
    (forgetCursor s).cls = s.cls := rfl
@[simp] theorem forgetCursor_activity (s : State) :
    (forgetCursor s).activity = s.activity := rfl
@[simp] theorem forgetCursor_started (s : State) :
    (forgetCursor s).started = s.started := rfl
@[simp] theorem forgetCursor_fresh (s : State) :
    (forgetCursor s).fresh = s.fresh + 1 := rfl
@[simp] theorem forgetCursor_host (s : State) :
    (forgetCursor s).host = s.host := rfl
@[simp] theorem forgetCursor_job (s : State) :
    (forgetCursor s).job = s.job := rfl

/-! ## raiseFraming -/

@[simp] theorem raiseFraming_cfg (c : Cause) (pos aux : Nat) (s : State) :
    (raiseFraming c pos aux s).cfg = s.cfg := rfl
@[simp] theorem raiseFraming_inp (c : Cause) (pos aux : Nat) (s : State) :
    (raiseFraming c pos aux s).inp = s.inp := rfl
@[simp] theorem raiseFraming_out (c : Cause) (pos aux : Nat) (s : State) :
    (raiseFraming c pos aux s).out = [] := rfl
@[simp] theorem raiseFraming_line (c : Cause) (pos aux : Nat) (s : State) :
    (raiseFraming c pos aux s).line = freeLine s.cfg.L s.fresh := rfl
@[simp] theorem raiseFraming_k (c : Cause) (pos aux : Nat) (s : State) :
    (raiseFraming c pos aux s).k = Config.freeNat s.fresh := rfl
@[simp] theorem raiseFraming_pos (c : Cause) (pos aux : Nat) (s : State) :
    (raiseFraming c pos aux s).pos = Config.freeNat (s.fresh + 1) := rfl
@[simp] theorem raiseFraming_u (c : Cause) (pos aux : Nat) (s : State) :
    (raiseFraming c pos aux s).u = [] := rfl
@[simp] theorem raiseFraming_q (c : Cause) (pos aux : Nat) (s : State) :
    (raiseFraming c pos aux s).q = 0 := rfl
@[simp] theorem raiseFraming_n (c : Cause) (pos aux : Nat) (s : State) :
    (raiseFraming c pos aux s).n = 0 := rfl
@[simp] theorem raiseFraming_result (c : Cause) (pos aux : Nat) (s : State) :
    (raiseFraming c pos aux s).result = ⟨c, pos, aux⟩ := rfl
@[simp] theorem raiseFraming_sf (c : Cause) (pos aux : Nat) (s : State) :
    (raiseFraming c pos aux s).sf = s.sf := rfl
@[simp] theorem raiseFraming_cls (c : Cause) (pos aux : Nat) (s : State) :
    (raiseFraming c pos aux s).cls = s.cls := rfl
@[simp] theorem raiseFraming_activity (c : Cause) (pos aux : Nat) (s : State) :
    (raiseFraming c pos aux s).activity = .idle := rfl
@[simp] theorem raiseFraming_started (c : Cause) (pos aux : Nat) (s : State) :
    (raiseFraming c pos aux s).started = s.started := rfl
@[simp] theorem raiseFraming_fresh (c : Cause) (pos aux : Nat) (s : State) :
    (raiseFraming c pos aux s).fresh = s.fresh + 2 := rfl
@[simp] theorem raiseFraming_host (c : Cause) (pos aux : Nat) (s : State) :
    (raiseFraming c pos aux s).host = s.host := rfl
@[simp] theorem raiseFraming_job (c : Cause) (pos aux : Nat) (s : State) :
    (raiseFraming c pos aux s).job = s.job := rfl

/-! ## endDecode -/

@[simp] theorem endDecode_cfg (s : State) :
    (endDecode s).cfg = s.cfg := rfl
@[simp] theorem endDecode_inp (s : State) :
    (endDecode s).inp = s.inp := rfl
@[simp] theorem endDecode_out (s : State) :
    (endDecode s).out = s.out := rfl
@[simp] theorem endDecode_line (s : State) :
    (endDecode s).line = freeLine s.cfg.L s.fresh := rfl
@[simp] theorem endDecode_k (s : State) :
    (endDecode s).k = Config.freeNat s.fresh := rfl
@[simp] theorem endDecode_pos (s : State) :
    (endDecode s).pos = Config.freeNat (s.fresh + 1) := rfl
@[simp] theorem endDecode_u (s : State) :
    (endDecode s).u = [] := rfl
@[simp] theorem endDecode_q (s : State) :
    (endDecode s).q = 0 := rfl
@[simp] theorem endDecode_n (s : State) :
    (endDecode s).n = 0 := rfl
@[simp] theorem endDecode_result (s : State) :
    (endDecode s).result = Result.success := rfl
@[simp] theorem endDecode_sf (s : State) :
    (endDecode s).sf = s.sf := rfl
@[simp] theorem endDecode_cls (s : State) :
    (endDecode s).cls = s.cls := rfl
@[simp] theorem endDecode_activity (s : State) :
    (endDecode s).activity = .idle := rfl
@[simp] theorem endDecode_started (s : State) :
    (endDecode s).started = s.started := rfl
@[simp] theorem endDecode_fresh (s : State) :
    (endDecode s).fresh = s.fresh + 2 := rfl
@[simp] theorem endDecode_host (s : State) :
    (endDecode s).host = s.host := rfl
@[simp] theorem endDecode_job (s : State) :
    (endDecode s).job = s.job := rfl

/-! ## startDecode -/

@[simp] theorem startDecode_cfg (tokens : Bool) (s : State) :
    (startDecode tokens s).cfg = s.cfg := rfl
@[simp] theorem startDecode_inp (tokens : Bool) (s : State) :
    (startDecode tokens s).inp = s.inp := rfl
@[simp] theorem startDecode_out (tokens : Bool) (s : State) :
    (startDecode tokens s).out = [] := rfl
@[simp] theorem startDecode_line (tokens : Bool) (s : State) :
    (startDecode tokens s).line = s.line := rfl
@[simp] theorem startDecode_k (tokens : Bool) (s : State) :
    (startDecode tokens s).k = 0 := rfl
@[simp] theorem startDecode_pos (tokens : Bool) (s : State) :
    (startDecode tokens s).pos = 0 := rfl
@[simp] theorem startDecode_u (tokens : Bool) (s : State) :
    (startDecode tokens s).u = [] := rfl
@[simp] theorem startDecode_q (tokens : Bool) (s : State) :
    (startDecode tokens s).q = 0 := rfl
@[simp] theorem startDecode_n (tokens : Bool) (s : State) :
    (startDecode tokens s).n = 0 := rfl
@[simp] theorem startDecode_result (tokens : Bool) (s : State) :
    (startDecode tokens s).result = s.result := rfl
@[simp] theorem startDecode_sf (tokens : Bool) (s : State) :
    (startDecode tokens s).sf = s.sf := rfl
@[simp] theorem startDecode_cls (tokens : Bool) (s : State) :
    (startDecode tokens s).cls = s.cls := rfl
@[simp] theorem startDecode_activity (tokens : Bool) (s : State) :
    (startDecode tokens s).activity = .packet tokens := rfl
@[simp] theorem startDecode_started (tokens : Bool) (s : State) :
    (startDecode tokens s).started = s.started := rfl
@[simp] theorem startDecode_fresh (tokens : Bool) (s : State) :
    (startDecode tokens s).fresh = s.fresh := rfl
@[simp] theorem startDecode_host (tokens : Bool) (s : State) :
    (startDecode tokens s).host = s.host := rfl
@[simp] theorem startDecode_job (tokens : Bool) (s : State) :
    (startDecode tokens s).job = s.job := rfl

/-! ## tokenEffect -/

@[simp] theorem tokenEffect_cfg (output : List Byte) (length : Nat) (s : State) :
    (tokenEffect output length s).cfg = s.cfg := rfl
@[simp] theorem tokenEffect_inp (output : List Byte) (length : Nat) (s : State) :
    (tokenEffect output length s).inp = s.inp := rfl
@[simp] theorem tokenEffect_out (output : List Byte) (length : Nat) (s : State) :
    (tokenEffect output length s).out = s.out := rfl
@[simp] theorem tokenEffect_line (output : List Byte) (length : Nat) (s : State) :
    (tokenEffect output length s).line = s.line := rfl
@[simp] theorem tokenEffect_k (output : List Byte) (length : Nat) (s : State) :
    (tokenEffect output length s).k = s.k := rfl
@[simp] theorem tokenEffect_pos (output : List Byte) (length : Nat) (s : State) :
    (tokenEffect output length s).pos = s.pos := rfl
@[simp] theorem tokenEffect_u (output : List Byte) (length : Nat) (s : State) :
    (tokenEffect output length s).u = s.u ++ output := rfl
@[simp] theorem tokenEffect_q (output : List Byte) (length : Nat) (s : State) :
    (tokenEffect output length s).q = s.q + length := rfl
@[simp] theorem tokenEffect_n (output : List Byte) (length : Nat) (s : State) :
    (tokenEffect output length s).n = s.n := rfl
@[simp] theorem tokenEffect_result (output : List Byte) (length : Nat) (s : State) :
    (tokenEffect output length s).result = s.result := rfl
@[simp] theorem tokenEffect_sf (output : List Byte) (length : Nat) (s : State) :
    (tokenEffect output length s).sf = s.sf := rfl
@[simp] theorem tokenEffect_cls (output : List Byte) (length : Nat) (s : State) :
    (tokenEffect output length s).cls = s.cls := rfl
@[simp] theorem tokenEffect_activity (output : List Byte) (length : Nat) (s : State) :
    (tokenEffect output length s).activity = s.activity := rfl
@[simp] theorem tokenEffect_started (output : List Byte) (length : Nat) (s : State) :
    (tokenEffect output length s).started = s.started := rfl
@[simp] theorem tokenEffect_fresh (output : List Byte) (length : Nat) (s : State) :
    (tokenEffect output length s).fresh = s.fresh := rfl
@[simp] theorem tokenEffect_host (output : List Byte) (length : Nat) (s : State) :
    (tokenEffect output length s).host = s.host := rfl
@[simp] theorem tokenEffect_job (output : List Byte) (length : Nat) (s : State) :
    (tokenEffect output length s).job = s.job := rfl

/-! ## acceptLine -/

@[simp] theorem acceptLine_cfg (line : List Byte) (n : Nat) (s : State) :
    (acceptLine line n s).cfg = s.cfg := rfl
@[simp] theorem acceptLine_inp (line : List Byte) (n : Nat) (s : State) :
    (acceptLine line n s).inp = s.inp := rfl
@[simp] theorem acceptLine_out (line : List Byte) (n : Nat) (s : State) :
    (acceptLine line n s).out = memAppend s.out line := rfl
@[simp] theorem acceptLine_line (line : List Byte) (n : Nat) (s : State) :
    (acceptLine line n s).line = line := rfl
@[simp] theorem acceptLine_k (line : List Byte) (n : Nat) (s : State) :
    (acceptLine line n s).k = s.k + 1 := rfl
@[simp] theorem acceptLine_pos (line : List Byte) (n : Nat) (s : State) :
    (acceptLine line n s).pos = s.pos + s.cfg.headerLen + n := rfl
@[simp] theorem acceptLine_u (line : List Byte) (n : Nat) (s : State) :
    (acceptLine line n s).u = s.u := rfl
@[simp] theorem acceptLine_q (line : List Byte) (n : Nat) (s : State) :
    (acceptLine line n s).q = s.q := rfl
@[simp] theorem acceptLine_n (line : List Byte) (n : Nat) (s : State) :
    (acceptLine line n s).n = s.n := rfl
@[simp] theorem acceptLine_result (line : List Byte) (n : Nat) (s : State) :
    (acceptLine line n s).result = s.result := rfl
@[simp] theorem acceptLine_sf (line : List Byte) (n : Nat) (s : State) :
    (acceptLine line n s).sf = s.sf := rfl
@[simp] theorem acceptLine_cls (line : List Byte) (n : Nat) (s : State) :
    (acceptLine line n s).cls = s.cls := rfl
@[simp] theorem acceptLine_activity (line : List Byte) (n : Nat) (s : State) :
    (acceptLine line n s).activity = s.activity := rfl
@[simp] theorem acceptLine_started (line : List Byte) (n : Nat) (s : State) :
    (acceptLine line n s).started = s.started := rfl
@[simp] theorem acceptLine_fresh (line : List Byte) (n : Nat) (s : State) :
    (acceptLine line n s).fresh = s.fresh := rfl
@[simp] theorem acceptLine_host (line : List Byte) (n : Nat) (s : State) :
    (acceptLine line n s).host = s.host := rfl
@[simp] theorem acceptLine_job (line : List Byte) (n : Nat) (s : State) :
    (acceptLine line n s).job = s.job := rfl

/-! ## resetBlock -/

@[simp] theorem resetBlock_host (s : State) : (resetBlock s).host = s.host := rfl
@[simp] theorem resetBlock_job (s : State) : (resetBlock s).job = s.job := rfl
@[simp] theorem resetBlock_fresh (s : State) : (resetBlock s).fresh = s.fresh := rfl
@[simp] theorem resetBlock_cfg (s : State) : (resetBlock s).cfg = Config.atReset := rfl
@[simp] theorem resetBlock_inp (s : State) : (resetBlock s).inp = [] := rfl
@[simp] theorem resetBlock_out (s : State) : (resetBlock s).out = [] := rfl
@[simp] theorem resetBlock_result (s : State) : (resetBlock s).result = Result.success := rfl
@[simp] theorem resetBlock_sf (s : State) : (resetBlock s).sf = none := rfl
@[simp] theorem resetBlock_cls (s : State) : (resetBlock s).cls = none := rfl
@[simp] theorem resetBlock_activity (s : State) : (resetBlock s).activity = .idle := rfl
@[simp] theorem resetBlock_started (s : State) : (resetBlock s).started = false := rfl

/-! ## failJob -/

@[simp] theorem failJob_cfg (at_ : Stage) (e : IoError) (s : State) :
    (failJob at_ e s).cfg = s.cfg := rfl
@[simp] theorem failJob_inp (at_ : Stage) (e : IoError) (s : State) :
    (failJob at_ e s).inp = s.inp := rfl
@[simp] theorem failJob_out (at_ : Stage) (e : IoError) (s : State) :
    (failJob at_ e s).out = s.out := rfl
@[simp] theorem failJob_line (at_ : Stage) (e : IoError) (s : State) :
    (failJob at_ e s).line = s.line := rfl
@[simp] theorem failJob_k (at_ : Stage) (e : IoError) (s : State) :
    (failJob at_ e s).k = s.k := rfl
@[simp] theorem failJob_pos (at_ : Stage) (e : IoError) (s : State) :
    (failJob at_ e s).pos = s.pos := rfl
@[simp] theorem failJob_u (at_ : Stage) (e : IoError) (s : State) :
    (failJob at_ e s).u = s.u := rfl
@[simp] theorem failJob_q (at_ : Stage) (e : IoError) (s : State) :
    (failJob at_ e s).q = s.q := rfl
@[simp] theorem failJob_n (at_ : Stage) (e : IoError) (s : State) :
    (failJob at_ e s).n = s.n := rfl
@[simp] theorem failJob_result (at_ : Stage) (e : IoError) (s : State) :
    (failJob at_ e s).result = s.result := rfl
@[simp] theorem failJob_sf (at_ : Stage) (e : IoError) (s : State) :
    (failJob at_ e s).sf = s.sf := rfl
@[simp] theorem failJob_cls (at_ : Stage) (e : IoError) (s : State) :
    (failJob at_ e s).cls = s.cls := rfl
@[simp] theorem failJob_activity (at_ : Stage) (e : IoError) (s : State) :
    (failJob at_ e s).activity = s.activity := rfl
@[simp] theorem failJob_started (at_ : Stage) (e : IoError) (s : State) :
    (failJob at_ e s).started = s.started := rfl
@[simp] theorem failJob_fresh (at_ : Stage) (e : IoError) (s : State) :
    (failJob at_ e s).fresh = s.fresh := rfl
@[simp] theorem failJob_host (at_ : Stage) (e : IoError) (s : State) :
    (failJob at_ e s).host = abortSequence s.host := rfl
@[simp] theorem failJob_job (at_ : Stage) (e : IoError) (s : State) :
    (failJob at_ e s).job = { s.job with stage := .failed, failure := some (at_, e), link := .down } := rfl

/-! ## writePart -/

@[simp] theorem writePart_cfg (bs : List Byte) (s : State) :
    (writePart bs s).cfg = s.cfg := rfl
@[simp] theorem writePart_inp (bs : List Byte) (s : State) :
    (writePart bs s).inp = s.inp := rfl
@[simp] theorem writePart_out (bs : List Byte) (s : State) :
    (writePart bs s).out = s.out := rfl
@[simp] theorem writePart_line (bs : List Byte) (s : State) :
    (writePart bs s).line = s.line := rfl
@[simp] theorem writePart_k (bs : List Byte) (s : State) :
    (writePart bs s).k = s.k := rfl
@[simp] theorem writePart_pos (bs : List Byte) (s : State) :
    (writePart bs s).pos = s.pos := rfl
@[simp] theorem writePart_u (bs : List Byte) (s : State) :
    (writePart bs s).u = s.u := rfl
@[simp] theorem writePart_q (bs : List Byte) (s : State) :
    (writePart bs s).q = s.q := rfl
@[simp] theorem writePart_n (bs : List Byte) (s : State) :
    (writePart bs s).n = s.n := rfl
@[simp] theorem writePart_result (bs : List Byte) (s : State) :
    (writePart bs s).result = s.result := rfl
@[simp] theorem writePart_sf (bs : List Byte) (s : State) :
    (writePart bs s).sf = s.sf := rfl
@[simp] theorem writePart_cls (bs : List Byte) (s : State) :
    (writePart bs s).cls = s.cls := rfl
@[simp] theorem writePart_activity (bs : List Byte) (s : State) :
    (writePart bs s).activity = s.activity := rfl
@[simp] theorem writePart_started (bs : List Byte) (s : State) :
    (writePart bs s).started = s.started := rfl
@[simp] theorem writePart_host (bs : List Byte) (s : State) :
    (writePart bs s).host = s.host := rfl
@[simp] theorem writePart_fresh (bs : List Byte) (s : State) :
    (writePart bs s).fresh = s.fresh + 1 := rfl
@[simp] theorem writePart_job_stage (bs : List Byte) (s : State) :
    (writePart bs s).job.stage = s.job.stage := rfl
@[simp] theorem writePart_job_cursor (bs : List Byte) (s : State) :
    (writePart bs s).job.cursor = s.job.cursor := rfl
@[simp] theorem writePart_job_failure (bs : List Byte) (s : State) :
    (writePart bs s).job.failure = s.job.failure := rfl
@[simp] theorem writePart_job_reordered (bs : List Byte) (s : State) :
    (writePart bs s).job.reordered = s.job.reordered := rfl
@[simp] theorem writePart_job_media (bs : List Byte) (s : State) :
    (writePart bs s).job.media = s.job.media := rfl
@[simp] theorem writePart_job_miscounted (bs : List Byte) (s : State) :
    (writePart bs s).job.miscounted = s.job.miscounted := rfl
@[simp] theorem writePart_job_final (bs : List Byte) (s : State) :
    (writePart bs s).job.final = s.job.final := rfl
@[simp] theorem writePart_job_query (bs : List Byte) (s : State) :
    (writePart bs s).job.query = s.job.query := rfl
@[simp] theorem writePart_job_log (bs : List Byte) (s : State) :
    (writePart bs s).job.log = s.job.log := rfl
@[simp] theorem writePart_job_inbox (bs : List Byte) (s : State) :
    (writePart bs s).job.inbox = s.job.inbox := rfl
@[simp] theorem writePart_job_link (bs : List Byte) (s : State) :
    (writePart bs s).job.link = s.job.link := rfl
@[simp] theorem writePart_job_name (bs : List Byte) (s : State) :
    (writePart bs s).job.name = s.job.name := rfl
@[simp] theorem writePart_job_written (bs : List Byte) (s : State) :
    (writePart bs s).job.written = none := rfl

/-! ## writeAll -/

@[simp] theorem writeAll_stage (bs : List Byte) (j : Job) : (writeAll bs j).stage = j.stage := rfl
@[simp] theorem writeAll_cursor (bs : List Byte) (j : Job) : (writeAll bs j).cursor = j.cursor := rfl
@[simp] theorem writeAll_failure (bs : List Byte) (j : Job) : (writeAll bs j).failure = j.failure := rfl
@[simp] theorem writeAll_reordered (bs : List Byte) (j : Job) : (writeAll bs j).reordered = j.reordered := rfl
@[simp] theorem writeAll_media (bs : List Byte) (j : Job) : (writeAll bs j).media = j.media := rfl
@[simp] theorem writeAll_miscounted (bs : List Byte) (j : Job) : (writeAll bs j).miscounted = j.miscounted := rfl
@[simp] theorem writeAll_final (bs : List Byte) (j : Job) : (writeAll bs j).final = j.final := rfl
@[simp] theorem writeAll_query (bs : List Byte) (j : Job) : (writeAll bs j).query = j.query := rfl
@[simp] theorem writeAll_log (bs : List Byte) (j : Job) : (writeAll bs j).log = j.log := rfl
@[simp] theorem writeAll_inbox (bs : List Byte) (j : Job) : (writeAll bs j).inbox = j.inbox := rfl
@[simp] theorem writeAll_link (bs : List Byte) (j : Job) : (writeAll bs j).link = j.link := rfl
@[simp] theorem writeAll_name (bs : List Byte) (j : Job) : (writeAll bs j).name = j.name := rfl
@[simp] theorem writeAll_wire (bs : List Byte) (j : Job) : (writeAll bs j).wire = j.wire ++ bs := rfl
@[simp] theorem writeAll_written (bs : List Byte) (j : Job) : (writeAll bs j).written = some bs.length := rfl

/-! ## advance: what a step of the job leaves alone -/

@[simp] theorem advance_failure (step : JobStep) (j : Job) : (advance step j).failure = j.failure := by
  unfold advance; split <;> rfl
@[simp] theorem advance_media (step : JobStep) (j : Job) : (advance step j).media = j.media := by
  unfold advance; split <;> rfl
@[simp] theorem advance_miscounted (step : JobStep) (j : Job) : (advance step j).miscounted = j.miscounted := by
  unfold advance; split <;> rfl
@[simp] theorem advance_final (step : JobStep) (j : Job) : (advance step j).final = j.final := by
  unfold advance; split <;> rfl
@[simp] theorem advance_query (step : JobStep) (j : Job) : (advance step j).query = j.query := by
  unfold advance; split <;> rfl
@[simp] theorem advance_log (step : JobStep) (j : Job) : (advance step j).log = j.log := by
  unfold advance; split <;> rfl
@[simp] theorem advance_wire (step : JobStep) (j : Job) : (advance step j).wire = j.wire := by
  unfold advance; split <;> rfl
@[simp] theorem advance_written (step : JobStep) (j : Job) : (advance step j).written = j.written := by
  unfold advance; split <;> rfl
@[simp] theorem advance_inbox (step : JobStep) (j : Job) : (advance step j).inbox = j.inbox := by
  unfold advance; split <;> rfl
@[simp] theorem advance_name (step : JobStep) (j : Job) : (advance step j).name = j.name := by
  unfold advance; split <;> rfl

/-! ## collectStatus -/

@[simp] theorem collectStatus_cfg (s : State) : (collectStatus s).cfg = s.cfg := rfl
@[simp] theorem collectStatus_inp (s : State) : (collectStatus s).inp = s.inp := rfl
@[simp] theorem collectStatus_out (s : State) : (collectStatus s).out = s.out := rfl
@[simp] theorem collectStatus_line (s : State) : (collectStatus s).line = s.line := rfl
@[simp] theorem collectStatus_k (s : State) : (collectStatus s).k = s.k := rfl
@[simp] theorem collectStatus_pos (s : State) : (collectStatus s).pos = s.pos := rfl
@[simp] theorem collectStatus_u (s : State) : (collectStatus s).u = s.u := rfl
@[simp] theorem collectStatus_q (s : State) : (collectStatus s).q = s.q := rfl
@[simp] theorem collectStatus_n (s : State) : (collectStatus s).n = s.n := rfl
@[simp] theorem collectStatus_result (s : State) : (collectStatus s).result = s.result := rfl
@[simp] theorem collectStatus_sf (s : State) : (collectStatus s).sf = s.sf := rfl
@[simp] theorem collectStatus_cls (s : State) : (collectStatus s).cls = s.cls := rfl
@[simp] theorem collectStatus_activity (s : State) : (collectStatus s).activity = s.activity := rfl
@[simp] theorem collectStatus_started (s : State) : (collectStatus s).started = s.started := rfl
@[simp] theorem collectStatus_fresh (s : State) : (collectStatus s).fresh = s.fresh := rfl
@[simp] theorem collectStatus_host (s : State) : (collectStatus s).host = s.host := rfl
@[simp] theorem collectStatus_job_stage (s : State) : (collectStatus s).job.stage = s.job.stage := rfl
@[simp] theorem collectStatus_job_cursor (s : State) : (collectStatus s).job.cursor = s.job.cursor := rfl
@[simp] theorem collectStatus_job_failure (s : State) : (collectStatus s).job.failure = s.job.failure := rfl
@[simp] theorem collectStatus_job_reordered (s : State) : (collectStatus s).job.reordered = s.job.reordered := rfl
@[simp] theorem collectStatus_job_media (s : State) : (collectStatus s).job.media = s.job.media := rfl
@[simp] theorem collectStatus_job_miscounted (s : State) : (collectStatus s).job.miscounted = s.job.miscounted := rfl
@[simp] theorem collectStatus_job_wire (s : State) : (collectStatus s).job.wire = s.job.wire := rfl
@[simp] theorem collectStatus_job_written (s : State) : (collectStatus s).job.written = s.job.written := rfl
@[simp] theorem collectStatus_job_inbox (s : State) : (collectStatus s).job.inbox = s.job.inbox := rfl
@[simp] theorem collectStatus_job_link (s : State) : (collectStatus s).job.link = s.job.link := rfl
@[simp] theorem collectStatus_job_name (s : State) : (collectStatus s).job.name = s.job.name := rfl
@[simp] theorem collectStatus_job_query (s : State) :
    (collectStatus s).job.query = settle s.cfg s.sf s.job.query := rfl
@[simp] theorem collectStatus_job_final (s : State) :
    (collectStatus s).job.final = settle s.cfg s.sf s.job.final := rfl

end Sys2Proof.Machine
end

