-- ==== Sys2Proof/Laws/Exec.lean ====
section
/-! SUPPORT. What each shared operation can do, said once: the provers cite these instead of unfolding. -/

namespace Sys2Proof.Machine

open Sys2Proof

/-! ## Outcomes -/

/-- The state of an answer that goes on. -/
theorem next_injective {s t : State} (h : (Host.Outcome.next s : Answer) = .next t) : s = t := by
  injection h

/-! ## The end of a packet -/

/-- Everything `packetEffect` does when it goes on. -/
theorem packetEffect_next {n : Nat} {r : LineRead} {s t : State} (h : packetEffect n r s = .next t) :
    (∃ q, r = .malformed q ∧ t = raiseFraming .payloadMalformed s.pos q s) ∨
    (∃ len, r = .wrongLength len ∧ t = raiseFraming .lineLength s.pos len s) ∨
    (∃ u, r = .line u ∧ t = acceptLine u n s) := by
  cases r with
  | malformed q => exact .inl ⟨q, rfl, (next_injective h).symm⟩
  | wrongLength len => exact .inr (.inl ⟨len, rfl, (next_injective h).symm⟩)
  | overflow => cases h
  | line u => exact .inr (.inr ⟨u, rfl, (next_injective h).symm⟩)

/-- When `checkLine` accepts: the length is `L` and `OUT` has room. -/
theorem checkLine_line {c : Config} {held : Nat} {u v : List Byte} (h : checkLine c held u = .line v) :
    v = u ∧ u.length = c.L ∧ held + c.L ≤ c.maxBytes := by
  unfold checkLine at h
  split at h
  · cases h
  · split at h
    · cases h
    · injection h with h
      exact ⟨h.symm, by omega, by omega⟩

/-- When a packet's line is accepted. -/
theorem readLine_line {c : Config} {held : Nat} {p v : List Byte} (h : readLine c held p = .line v) :
    unpack p = .ok v ∧ v.length = c.L ∧ held + c.L ≤ c.maxBytes := by
  unfold readLine at h
  split at h
  · cases h
  · rename_i u hu
    obtain ⟨rfl, hl, hr⟩ := checkLine_line h
    exact ⟨hu, hl, hr⟩

/-! ## The transport -/

/-- Everything `sendBytes` does. -/
theorem sendBytes_cases (step : JobStep) (bs : List Byte) (s : State) :
    (jobOver s.job = true ∧ sendBytes step bs s = s) ∨
    (jobOver s.job = false ∧ s.job.link = .up ∧
      sendBytes step bs s = { s with job := advance step (writeAll bs s.job) }) ∨
    (jobOver s.job = false ∧ s.job.link = .stalled ∧
      sendBytes step bs s = failJob (stageOf step s.job) .timeout (writePart bs s)) ∨
    (jobOver s.job = false ∧ s.job.link = .down ∧
      sendBytes step bs s = failJob (stageOf step s.job) .writeFailed (writePart bs s)) := by
  unfold sendBytes
  cases ho : jobOver s.job with
  | true => exact .inl ⟨rfl, rfl⟩
  | false =>
    cases hl : s.job.link with
    | up => exact .inr (.inl ⟨rfl, rfl, rfl⟩)
    | stalled => exact .inr (.inr (.inl ⟨rfl, rfl, rfl⟩))
    | down => exact .inr (.inr (.inr ⟨rfl, rfl, rfl⟩))

/-- A failed write has written a prefix of its bytes. -/
theorem writePart_wire (bs : List Byte) (s : State) :
    ∃ k, k ≤ bs.length ∧ (writePart bs s).job.wire = s.job.wire ++ bs.take k :=
  ⟨_, Nat.le_of_lt_succ (Nat.mod_lt _ (Nat.succ_pos _)), rfl⟩

/-- A write to the transport leaves the block alone. -/
theorem sendBytes_sameBlock (step : JobStep) (bs : List Byte) (s : State) : SameBlock s (sendBytes step bs s) := by
  obtain ⟨-, h⟩ | ⟨-, -, h⟩ | ⟨-, -, h⟩ | ⟨-, -, h⟩ := sendBytes_cases step bs s <;> rw [h] <;> constructor <;> rfl

/-- An abort of what was aborted changes nothing more. -/
theorem abortSequence_idem (ms : List Move) : abortSequence (abortSequence ms) = abortSequence ms := by
  induction ms with
  | nil => rfl
  | cons m ms ih =>
    by_cases hm : m = .startJob
    · simp [abortSequence, hm]
    · by_cases he : isEvent m = true <;> simp [abortSequence, hm, he, ih]

/-- Where only stream bytes wait, a read gives exactly the number asked for, and loses none. -/
theorem readExact_done {inbox : List Reply} {n : Nat} {acc bs : List Byte} {rest : List Reply}
    (hw : ∀ w, Reply.whole w ∉ inbox) (h : readExact n acc inbox = .done bs rest) :
    bs.length = acc.length + n ∧ bs ++ dataOf rest = acc ++ dataOf inbox := by
  induction inbox generalizing n acc with
  | nil =>
    unfold readExact at h
    split at h
    · rename_i hn
      injection h with hb hr
      subst hb hr
      simp [hn]
    · cases h
  | cons r inbox ih =>
    cases r with
    | data ds =>
      unfold readExact at h
      split at h
      · rename_i hn
        injection h with hb hr
        subst hb hr
        refine ⟨by simp; omega, ?_⟩
        unfold putBack
        split
        · rename_i hd
          have ht : ds.take n = ds := by
            rw [← List.append_nil (ds.take n), ← hd, List.take_append_drop]
          rw [ht, dataOf, List.append_assoc]
        · rw [dataOf, dataOf, List.append_assoc, ← List.append_assoc (ds.take n), List.take_append_drop]
      · rename_i hn
        obtain ⟨hl, hb⟩ := ih (fun w hm => hw w (List.mem_cons_of_mem _ hm)) h
        refine ⟨by rw [hl, List.length_append]; omega, ?_⟩
        rw [hb, dataOf, List.append_assoc]
    | whole w => exact absurd (List.mem_cons_self ..) (hw w)
    | ioError => cases h

/-- Everything `receiveReply` does when it goes on. -/
theorem receiveReply_next {s t : State} (h : receiveReply s = .next t) :
    (readReply s = .timedOut ∧ t = failJob s.job.stage .timeout { s with job := { s.job with inbox := [] } }) ∨
    (∃ rest, readReply s = .failed rest ∧
      t = failJob s.job.stage .readFailed { s with job := { s.job with inbox := rest } }) ∨
    (∃ bs rest, readReply s = .done bs rest ∧ bs.length ≤ s.cfg.maxBytes ∧
      t = { s with inp := Memory.ofBytes bs, job := { s.job with inbox := rest } }) := by
  unfold receiveReply at h
  split at h
  · rename_i hi
    exact .inl ⟨hi, (next_injective h).symm⟩
  · rename_i rest hi
    exact .inr (.inl ⟨rest, hi, (next_injective h).symm⟩)
  · rename_i bs rest hi
    split at h
    · cases h
    · exact .inr (.inr ⟨bs, rest, hi, by omega, (next_injective h).symm⟩)

/-- Everything `keepReply` does when it goes on. -/
theorem keepReply_next {keep : ReplyStatus → Job → Job} {a : Answer} {t : State} (h : keepReply keep a = .next t) :
    ∃ v, a = .next v ∧
      ((jobOver v.job = true ∧ t = v) ∨
        (jobOver v.job = false ∧ t = { v with job := keep (.read v.inp.bytes) v.job })) := by
  cases a with
  | next v =>
    refine ⟨v, rfl, ?_⟩
    unfold keepReply at h
    cases ho : jobOver v.job with
    | true =>
      simp only [ho, if_true] at h
      exact .inl ⟨rfl, (next_injective h).symm⟩
    | false =>
      simp only [ho, Bool.false_eq_true, if_false] at h
      exact .inr ⟨rfl, (next_injective h).symm⟩
  | fault f => cases h
  | refused r => cases h

/-- A status that is not a reply waiting for PARSE stays, and gives the log nothing. -/
theorem settle_of_not_read {c : Config} {sf : Option StatusFrame} {r : ReplyStatus} (h : ∀ raw, r ≠ .read raw) :
    settle c sf r = r ∧ settleEntries c sf r = [] := by
  cases r with
  | awaited => exact ⟨rfl, rfl⟩
  | read raw => exact absurd rfl (h raw)
  | decoded f => exact ⟨rfl, rfl⟩

/-- A reply that PARSE has decoded is settled and logged. -/
theorem settle_read {c : Config} {sf : Option StatusFrame} {raw : List Byte} (h : sf = parseReply c raw) :
    settle c sf (.read raw) = .decoded sf ∧ settleEntries c sf (.read raw) = statusEntries raw.length sf := by
  simp only [settle, settleEntries, if_pos h, and_self]

/-- A reply is not settled by the frame of another. -/
theorem settle_other {c : Config} {sf : Option StatusFrame} {raw : List Byte} (h : sf ≠ parseReply c raw) :
    settle c sf (.read raw) = .read raw ∧ settleEntries c sf (.read raw) = [] := by
  simp only [settle, settleEntries, if_neg h, and_self]

/-- Everything `openTransport` does. -/
theorem openTransport_cases (name : String) (ch : Channel) (s : State) :
    (jobOver s.job = true ∧ openTransport name ch s = s) ∨
    (jobOver s.job = false ∧ openError ch = none ∧
      openTransport name ch s = { s with job := { s.job with link := .up, name := name } }) ∨
    (jobOver s.job = false ∧ ∃ e, openError ch = some e ∧ openTransport name ch s = failJob s.job.stage e s) := by
  unfold openTransport
  cases ho : jobOver s.job with
  | true => exact .inl ⟨rfl, rfl⟩
  | false =>
    cases hc : openError ch with
    | none => exact .inr (.inl ⟨rfl, rfl, rfl⟩)
    | some e => exact .inr (.inr ⟨rfl, e, rfl, rfl⟩)

/-- A transport opens exactly where opening it has no error. -/
theorem opens_iff (ch : Channel) : opens ch = true ↔ openError ch = none := by
  simp [opens]

/-- A flag byte depends only on the fields whose place is in it. -/
theorem setFlagBits_congr (place : Toggle → BitPlace) (fb : FlagByte) (pc pc' : PrintConfig) (ts : List Toggle)
    (b : Byte) (h : ∀ t, (place t).byte = fb → toggleOf pc t = toggleOf pc' t) :
    setFlagBits place fb pc ts b = setFlagBits place fb pc' ts b := by
  induction ts generalizing b with
  | nil => rfl
  | cons t ts ih =>
    unfold setFlagBits
    by_cases ht : (place t).byte = fb
    · rw [h t ht]; exact ih _
    · simp only [ht, if_false]; exact ih _

/-! ## The four operations -/

/-- Everything ENCODE does when it goes on. -/
theorem execEncode_next {s t : State} (h : execEncode s = .next t) :
    (s.inp.length % s.cfg.L ≠ 0 ∧
      t = forgetLine (raise .partialLine (lineCount s.cfg s.inp.length * s.cfg.L) (s.inp.length % s.cfg.L) s)) ∨
    (s.inp.length % s.cfg.L = 0 ∧ (encodeStream s.cfg s.inp).length ≤ s.cfg.maxBytes ∧
      t = forgetLine (finish Result.success { s with out := Memory.ofBytes (encodeStream s.cfg s.inp) })) := by
  unfold execEncode at h
  split at h
  · exact .inl ⟨by assumption, (next_injective h).symm⟩
  · split at h
    · cases h
    · exact .inr ⟨by omega, by omega, (next_injective h).symm⟩

/-- Everything DECODE does when it goes on. -/
theorem execDecode_next {s t : State} (h : execDecode s = .next t) :
    (∃ out, decodeStream s.cfg s.inp.bytes = .done out ∧ t = endDecode { s with out := Memory.ofBytes out }) ∨
    (∃ c pos aux, decodeStream s.cfg s.inp.bytes = .error c pos aux ∧ t = raiseFraming c pos aux s) := by
  unfold execDecode at h
  split at h
  · rename_i out hd
    exact .inl ⟨out, hd, (next_injective h).symm⟩
  · rename_i c pos aux hd
    exact .inr ⟨c, pos, aux, hd, (next_injective h).symm⟩
  · cases h

/-- Everything PARSE does. -/
theorem execParse_cases (s : State) :
    (s.inp.length ≠ s.cfg.frameLen ∧
      execParse s = .next (raise .wrongLength 0 s.inp.length { s with sf := none })) ∨
    (s.inp.length = s.cfg.frameLen ∧ execParse s = .next
      (finish Result.success
        { s with out := [], sf := some (parseFrame s.cfg (memRead s.inp 0 s.cfg.frameLen)) })) := by
  unfold execParse
  split
  · exact .inl ⟨by assumption, rfl⟩
  · exact .inr ⟨by omega, rfl⟩

/-! ## A step -/

/-- A step that finds an instruction runs it in the accepting state. -/
theorem step_decoded {s : State} {code : Code} {i : Instr} {rest : List Byte}
    (hf : fetch s = some code) (hd : decode s.cfg.toFormat code = .ok (i, rest)) : step s = exec i (accept s) := by
  unfold step
  simp only [hf, hd]

/-- A step that finds code which stands for no instruction. -/
theorem step_undecoded {s : State} {code : Code} {e : DecodeError}
    (hf : fetch s = some code) (hd : decode s.cfg.toFormat code = .error e) : step s = decodeFailure code e (accept s) := by
  unfold step
  simp only [hf, hd]

/-- A step that finds no code. -/
theorem step_between {s : State} (hf : fetch s = none) : step s = betweenInstructions s := by
  unfold step
  simp only [hf]

/-- Everything `fetch` can find. -/
theorem fetch_cases {s : State} {code : Code} (h : fetch s = some code) :
    (s.activity = .idle ∧ ∃ w rest, s.host = .present w :: rest ∧ code = .op w) ∨
    (s.activity = .idle ∧ ∃ bs rest, s.host = .command bs :: rest ∧ code = .command bs) ∨
    (∃ tokens, s.activity = .packet tokens ∧ s.pos < s.inp.length ∧ code = .packet (streamLeft s)) ∨
    (s.activity = .payload ∧ s.q < s.n ∧ code = .token (payloadLeft s)) := by
  unfold fetch at h
  split at h
  · cases h
  · split at h
    · rename_i ha
      split at h
      · rename_i w rest hh
        exact .inl ⟨ha, w, rest, hh, by injection h with h; exact h.symm⟩
      · rename_i bs rest hh
        exact .inr (.inl ⟨ha, bs, rest, hh, by injection h with h; exact h.symm⟩)
      · cases h
    · rename_i tokens ha
      split at h
      · rename_i hp
        exact .inr (.inr (.inl ⟨tokens, ha, hp.1, by injection h with h; exact h.symm⟩))
      · cases h
    · rename_i ha
      split at h
      · rename_i hq
        exact .inr (.inr (.inr ⟨ha, hq, by injection h with h; exact h.symm⟩))
      · cases h

/-- An operation word decodes to one of the four operations. -/
theorem decodeOp_cases (w : OpWord) :
    decodeOp w = .encode ∨ decodeOp w = .decode ∨ decodeOp w = .parse ∨ ∃ e1 e2, decodeOp w = .classify e1 e2 := by
  unfold decodeOp
  split
  · exact .inl rfl
  · split
    · exact .inr (.inl rfl)
    · split
      · exact .inr (.inr (.inl rfl))
      · exact .inr (.inr (.inr ⟨_, _, rfl⟩))

end Sys2Proof.Machine
end

