-- ==== Sys2Proof/Laws/PerInstr.lean ====
section
/-! SUPPORT. A statement about every instruction, one lemma per constructor: the length of its code. -/

namespace Sys2Proof.Laws.CodeLength

open Sys2Proof

/-- How many bits the encoding tables give the instruction: 18 for an operation word (R50), the header and `n` bytes for a
packet (R51), a control byte and the data for a token (R54), and the bytes of R61 for a wire command. -/
def bitsOf (p : Format) : Instr → Nat
  | .encode => 18
  | .decode => 18
  | .parse => 18
  | .classify _ _ => 18
  | .xfer payload => 8 * (1 + p.lenBytes + payload.length)
  | .lit data => 8 * (1 + data.length)
  | .rep _ _ => 16
  | .nop => 8
  | .illegalStreamOpcode _ => 8
  | .enterRaster _ => 32
  | .initPrinter => 16
  | .queryStatus => 24
  | .flush count => 8 * count
  | .setMediaFormat flags => 8 * (3 + flags.length)
  | .setModeFlags _ => 32
  | .setExpandedMode _ => 32
  | .setMargin _ _ => 40
  | .setCompression => 16
  | .printAndFeed => 8

/-- The encoder gives the instruction a code of that length, in every format. -/
def Statement (i : Instr) : Prop := ∀ p : Format, (Sys2Proof.encode p i).bits = bitsOf p i

theorem encode : Statement .encode := fun _ => rfl
theorem decode : Statement .decode := fun _ => rfl
theorem parse : Statement .parse := fun _ => rfl
theorem classify (e1 e2 : Byte) : Statement (.classify e1 e2) := fun _ => rfl
theorem xfer (payload : List Byte) : Statement (.xfer payload) := by
  intro p; simp [Sys2Proof.encode, Code.bits, bitsOf, wrapPacket_length]
theorem lit (data : List Byte) : Statement (.lit data) := by
  intro p; simp [Sys2Proof.encode, Code.bits, bitsOf, emitLit]; omega
theorem rep (count : Nat) (b : Byte) : Statement (.rep count b) := fun _ => rfl
theorem nop : Statement .nop := fun _ => rfl
theorem illegalStreamOpcode (b : Byte) : Statement (.illegalStreamOpcode b) := fun _ => rfl
theorem enterRaster (mode : Byte) : Statement (.enterRaster mode) := fun _ => rfl
theorem initPrinter : Statement .initPrinter := fun _ => rfl
theorem queryStatus : Statement .queryStatus := fun _ => rfl
theorem flush (count : Nat) : Statement (.flush count) := by
  intro p; simp [Sys2Proof.encode, Code.bits, bitsOf, commandBytes]
theorem setMediaFormat (flags : List Byte) : Statement (.setMediaFormat flags) := by
  intro p; simp [Sys2Proof.encode, Code.bits, bitsOf, commandBytes]; omega
theorem setModeFlags (flags : Byte) : Statement (.setModeFlags flags) := fun _ => rfl
theorem setExpandedMode (flags : Byte) : Statement (.setExpandedMode flags) := fun _ => rfl
theorem setMargin (lo hi : Byte) : Statement (.setMargin lo hi) := fun _ => rfl
theorem setCompression : Statement .setCompression := fun _ => rfl
theorem printAndFeed : Statement .printAndFeed := fun _ => rfl

end Sys2Proof.Laws.CodeLength
end

