-- ==== Sys2Proof/Tests/Slice0.lean ====
section
/-! SUPPORT. Small tests of single operations, with the expected values of spec/95_test_vectors.md (VE, VD, VP, VC, P),
and a witness for every statement that has hypotheses. -/

namespace Sys2Proof.Tests

open Sys2Proof Sys2Proof.Machine

/-! ## Helpers -/

/-- The machine after reset with `bs` in `IN`. -/
def withInput (bs : List Byte) : State := { State.reset with inp := Memory.ofBytes bs }

/-- The test configuration T of 95_test_vectors.md. -/
def configT : Config :=
  { Config.atReset with magic := [0x80#8, 0x20#8, 0x42#8, 0x30#8, 0x30#8, 0x30#8, 0x00#8, 0x00#8] }

/-- The machine in configuration T with `bs` in `IN`. -/
def withFrame (bs : List Byte) : State := { withInput bs with cfg := configT }

def outOf (a : Answer) : Option (List Byte) :=
  match a with
  | .next s => some s.out.bytes
  | .fault _ => none
  | .refused _ => none

def resultOf (a : Answer) : Option (Nat × Nat × Nat) :=
  match a with
  | .next s => some ((causeCode s.result.code).toNat, s.result.pos, s.result.aux)
  | .fault _ => none
  | .refused _ => none

def frameOf (a : Answer) : Option StatusFrame :=
  match a with
  | .next s => s.sf
  | .fault _ => none
  | .refused _ => none

def classOf (a : Answer) : Option (Nat × Byte × Byte) :=
  match a with
  | .next s => s.cls.map fun r => ((classCode r.code).toNat, r.e1, r.e2)
  | .fault _ => none
  | .refused _ => none

def wireOf (a : Answer) : Option (List Byte) :=
  match a with
  | .next s => some s.job.wire
  | .fault _ => none
  | .refused _ => none

def stageAfter (a : Answer) : Option Stage :=
  match a with
  | .next s => some s.job.stage
  | .fault _ => none
  | .refused _ => none

def refusalOf (a : Answer) : Option Refusal :=
  match a with
  | .next _ => none
  | .fault _ => none
  | .refused r => some r

/-! ## Well-formedness: an ill-formed term for each check -/

theorem test_wf_xfer_too_long : (Instr.xfer (List.replicate 65536 0x00#8)).wf Format.source = false := by
  simp only [Instr.wf, List.length_replicate]; decide
theorem test_wf_lit_empty : (Instr.lit []).wf Format.source = false := by decide
theorem test_wf_lit_too_long : (Instr.lit (List.replicate 129 0x00#8)).wf Format.source = false := by
  simp only [Instr.wf, List.length_replicate]; decide
theorem test_wf_rep_once : (Instr.rep 1 0x00#8).wf Format.source = false := by decide
theorem test_wf_rep_too_often : (Instr.rep 129 0x00#8).wf Format.source = false := by decide
theorem test_wf_illegal_is_legal : (Instr.illegalStreamOpcode 0x47#8).wf Format.source = false := by decide
theorem test_wf_flush_nothing : (Instr.flush 0).wf Format.source = false := by decide

/-! ## Decoding: words written out from 30_encoding.md R50, R51, R54, R61 -/

theorem test_decode_encode_op : decode Format.source (.op 0b000000000000000000#18) = .ok (.encode, []) := by decide
theorem test_decode_decode_op : decode Format.source (.op 0b111111111111111101#18) = .ok (.decode, []) := by decide
theorem test_decode_parse_op : decode Format.source (.op 0b000000000000000010#18) = .ok (.parse, []) := by decide
/-- E2 = 0x10 in bits 17:10, E1 = 0x01 in bits 9:2, OP = 3 (VC10, 0x04007). -/
theorem test_decode_classify :
    decode Format.source (.op 0b000100000000000111#18) = .ok (.classify 0x01#8 0x10#8, []) := by decide
theorem test_decode_xfer :
    decode Format.source (.packet [0x47#8, 0x02#8, 0x00#8, 0xF1#8, 0xFF#8]) = .ok (.xfer [0xF1#8, 0xFF#8], []) := by decide
theorem test_decode_overrun : decode Format.source (.packet [0x47#8, 0x05#8, 0x00#8, 0xF1#8, 0xFF#8]) =
    .error (.lengthOverrun 5) := by decide
/-- D8, R87: the bytes left of the header. -/
theorem test_decode_truncated : decode Format.source (.packet [0x47#8, 0x02#8]) = .error (.headerTruncated 2) := by decide
theorem test_decode_illegal : decode Format.source (.packet [0x1B#8, 0x40#8]) = .ok (.illegalStreamOpcode 0x1B#8, [0x40#8]) := by
  decide
theorem test_decode_lit : decode Format.source (.token [0b00000001#8, 0xAA#8, 0x55#8]) = .ok (.lit [0xAA#8, 0x55#8], []) := by
  decide
theorem test_decode_rep : decode Format.source (.token [0b11111110#8, 0x00#8]) = .ok (.rep 3 0x00#8, []) := by decide
theorem test_decode_nop : decode Format.source (.token [0b10000000#8, 0x41#8]) = .ok (.nop, [0x41#8]) := by decide
theorem test_decode_enterRaster :
    decode Format.source (.command [0x1B#8, 0x69#8, 0x61#8, 0x01#8]) = .ok (.enterRaster 0x01#8, []) := by decide
theorem test_decode_initPrinter : decode Format.source (.command [0x1B#8, 0x40#8]) = .ok (.initPrinter, []) := by decide
theorem test_decode_queryStatus : decode Format.source (.command [0x1B#8, 0x69#8, 0x53#8]) = .ok (.queryStatus, []) := by decide
theorem test_decode_flush : decode Format.source (.command (List.replicate 64 0x00#8)) = .ok (.flush 64, []) := by rfl
theorem test_decode_media :
    decode Format.source (.command [0x1B#8, 0x69#8, 0x7A#8, 0x84#8, 0xA0#8]) = .ok (.setMediaFormat [0x84#8, 0xA0#8], []) := by
  decide
theorem test_decode_modeFlags :
    decode Format.source (.command [0x1B#8, 0x69#8, 0x4D#8, 0x40#8]) = .ok (.setModeFlags 0x40#8, []) := by decide
theorem test_decode_expanded :
    decode Format.source (.command [0x1B#8, 0x69#8, 0x4B#8, 0x08#8]) = .ok (.setExpandedMode 0x08#8, []) := by decide
theorem test_decode_margin :
    decode Format.source (.command [0x1B#8, 0x69#8, 0x64#8, 0x34#8, 0x12#8]) = .ok (.setMargin 0x34#8 0x12#8, []) := by decide
theorem test_decode_compression : decode Format.source (.command [0x4D#8, 0x02#8]) = .ok (.setCompression, []) := by decide
theorem test_decode_print : decode Format.source (.command [0x1A#8]) = .ok (.printAndFeed, []) := by decide
theorem test_decode_unknown : decode Format.source (.command [0x4D#8, 0x03#8]) = .error .unknownCommand := by decide
theorem test_decode_short_margin :
    decode Format.source (.command [0x1B#8, 0x69#8, 0x64#8, 0x34#8]) = .error .wrongOperands := by decide

/-! ## The opcode table's words run as the first instruction after reset -/

theorem test_table_xfer : decodeTableWord 8 0x47 = some (.xfer []) := by decide
theorem test_table_enterRaster : decodeTableWord 24 0x1B6961 = some (.enterRaster 0x00#8) := by decide
theorem test_table_classify : decodeTableWord 24 0x04007 = some (.classify 0x01#8 0x10#8) := by decide
theorem test_table_step_xfer : resultOf (step (State.reset.withFetchWord 8 0x47)) = some (5, 0, 0) := by decide
theorem test_table_step_print : wireOf (step (State.reset.withFetchWord 8 0x1A)) = some [0x1A#8] := by decide

/-! ## ENCODE -/

/-- VE4 -/
theorem test_pack_VE4 :
    pack [0x00#8, 0x00#8, 0x00#8, 0x01#8, 0x02#8, 0x03#8, 0x03#8, 0x03#8, 0x03#8, 0x03#8, 0x03#8, 0x03#8, 0x03#8,
      0x03#8, 0xAA#8, 0x55#8] =
    [0xFE#8, 0x00#8, 0x01#8, 0x01#8, 0x02#8, 0xF8#8, 0x03#8, 0x01#8, 0xAA#8, 0x55#8] := by decide
/-- VE19, the token cap of 128 -/
theorem test_pack_VE19 : pack (List.replicate 129 0x5A#8) = [0x81#8, 0x5A#8, 0x00#8, 0x5A#8] := by
  decide +kernel
/-- VE13 -/
theorem test_encode_VE13 :
    outOf (exec .encode (withInput (List.replicate 16 0xFF#8 ++ List.replicate 16 0x00#8))) =
      some [0x47#8, 0x02#8, 0x00#8, 0xF1#8, 0xFF#8, 0x47#8, 0x02#8, 0x00#8, 0xF1#8, 0x00#8] := by rfl
/-- VE14 -/
theorem test_encode_VE14 : resultOf (exec .encode (withInput (List.replicate 17 0xFF#8))) = some (7, 16, 1) := by rfl

/-! ## DECODE and the stream -/

/-- VD6, a trailing NOP -/
theorem test_decode_VD6 :
    outOf (exec .decode (withInput [0x47#8, 0x06#8, 0x00#8, 0x01#8, 0x12#8, 0x34#8, 0xF3#8, 0x00#8, 0x80#8])) =
      some (0x12#8 :: 0x34#8 :: List.replicate 14 0x00#8) := by rfl
/-- VD22, an error behind two good packets -/
theorem test_decode_VD22 :
    resultOf (exec .decode (withInput [0x47#8, 0x02#8, 0x00#8, 0xF1#8, 0xFF#8, 0x47#8, 0x02#8, 0x00#8, 0xF1#8, 0x00#8,
      0x5A#8])) = some (1, 10, 0x5A) := by rfl
/-- VD17, the second token is incomplete -/
theorem test_xfer_VD17 :
    resultOf (exec (.xfer [0xF3#8, 0x00#8, 0x01#8, 0xAA#8]) (startDecode false (withInput []))) = some (4, 0, 2) := by
  rfl
/-- VD20 -/
theorem test_xfer_VD20 :
    resultOf (exec (.xfer [0xF0#8, 0xFF#8]) (startDecode false (withInput []))) = some (5, 0, 17) := by rfl
/-- VD9 -/
theorem test_illegal_VD9 :
    resultOf (exec (.illegalStreamOpcode 0x1B#8) (startDecode false (withInput []))) = some (1, 0, 0x1B) := by rfl
theorem test_lit_offset :
    (match exec (.lit [0xAA#8, 0x55#8]) (withInput []) with
      | .next t => t.q
      | .fault _ => 0
      | .refused _ => 0) = 3 := by rfl
/-- VD26, the longest run -/
theorem test_rep_VD26 : unpack [0x81#8, 0x41#8] = .ok (List.replicate 128 0x41#8) := by rfl
/-- VD29 -/
theorem test_nop_VD29 : unpack [0x80#8, 0x80#8, 0x80#8] = .ok [] := by rfl

/-! ## PARSE and CLASSIFY -/

/-- Frame F3 of 95_test_vectors.md. -/
def frame3 : List Byte :=
  [0x80#8, 0x20#8, 0x42#8, 0x30#8, 0x30#8, 0x30#8, 0x7F#8, 0x03#8, 0x00#8, 0x04#8, 0x24#8, 0x11#8, 0x00#8, 0x00#8,
   0x00#8, 0x00#8, 0x00#8, 0x64#8, 0x2A#8, 0x02#8, 0x00#8, 0x00#8, 0x05#8, 0x00#8, 0x00#8, 0x00#8, 0x00#8, 0x00#8,
   0x00#8, 0x00#8, 0x00#8, 0x00#8]

/-- F3 with the error bytes of the source's example S1. -/
def frame3WithError : List Byte := (frame3.set 8 0x01#8).set 9 0x10#8

/-- VP3 -/
theorem test_parse_VP3 :
    frameOf (exec .parse (withFrame frame3)) = some
      { headerMismatch := true, battery := 0x7F#8, batteryKnown := false, extError := 0x03#8, error1 := 0x00#8
        error2 := 0x04#8, mediaWidth := 0x24#8, mediaType := 0x11#8, mediaLength := 0x64#8, statusType := 0x2A#8
        statusTypeKnown := false, phaseType := 0x02#8, notification := 0x05#8
        errClass := .transmissionError } := by rfl
/-- VP7 -/
theorem test_parse_VP7 : resultOf (exec .parse (withFrame (frame3.take 31))) = some (6, 0, 31) := by rfl
/-- VC10, the source's example S1 -/
theorem test_classify_VC10 :
    classOf (exec (.classify 0x01#8 0x10#8) (withInput [])) = some (1, 0x01#8, 0x10#8) := by rfl
/-- VC16 -/
theorem test_classify_VC16 :
    classOf (exec (.classify 0xF8#8 0xE0#8) (withInput [])) = some (0, 0xF8#8, 0xE0#8) := by rfl

/-! ## Wire commands and the host's side -/

theorem test_command_enterRaster :
    stageAfter (exec (.enterRaster 0x01#8) State.reset) = some .initializing := by rfl
theorem test_command_margin :
    wireOf (exec (marginCommand 0x1234#16) State.reset) =
      some [0x1B#8, 0x69#8, 0x64#8, 0x34#8, 0x12#8] := by rfl
theorem test_command_query_timeout : stageAfter (exec .queryStatus State.reset) = some .failed := by rfl
/-- C1: 160 lines give the count bytes A0 00. -/
theorem test_line_count : lineCountBytes Config.atReset 2560 = [0xA0#8, 0x00#8] := by decide
/-- S3: nine empty lookups and then one that finds the service; ten empty ones. -/
theorem test_connect_tenth : connect (List.replicate 9 false ++ [true]) = some 9 := by decide
theorem test_connect_none : connect (List.replicate 10 false ++ [true]) = none := by decide
/-- R142: the job of a transport whose service ten lookups do not find fails with that error. -/
theorem test_service_not_found :
    (openTransport "bt" (.bluetooth (List.replicate 10 false) true) State.reset).job.failure =
      some (.idle, .serviceNotFound) := by decide
/-- R106, the example of vector VP3. -/
theorem test_hex_text : hexText 0x2A#8 = "0x2A" := by decide
/-- R32: pixel 15 is the least significant bit of the second byte, 1 is black. -/
theorem test_pixel :
    pixelBlack Config.atReset (Memory.ofBytes (0x80#8 :: 0x01#8 :: List.replicate 14 0x00#8)) 0 15 = some true := by
  decide
/-- R31, R32: no pixel at `y = H`, nor in the partial line behind the last whole one. -/
theorem test_pixel_outside :
    pixelBlack Config.atReset (Memory.ofBytes (List.replicate 24 0xFF#8)) 0 128 = none ∧
    pixelBlack Config.atReset (Memory.ofBytes (List.replicate 24 0xFF#8)) 1 0 = none := by decide

/-- R142: a closed transport fails the read of the final status though a reply waits (R140), and an aborted job's moves
are gone while the world's stay (R139). -/
theorem test_read_after_close :
    stageAfter (hostMove .readStatus
      { State.reset with job := { Job.atIdle with inbox := [.whole [0x01#8]], link := .down } }) = some .failed := by
  rfl
theorem test_abort : abortSequence [.load [], .deliver .ioError, .transfer, .reset, .startJob, .transfer] =
    [.deliver .ioError, .reset, .startJob, .transfer] := by decide
/-- R141: one field on, the others off. -/
theorem test_flag_bits :
    setFlagBits (fun _ => ⟨.mode, 6, true⟩) .mode ⟨false, false, false, false, false, false, true, 0#16⟩ toggles 0x01#8
      = 0x41#8 := by decide
/-- R157: the class of the device error. -/
theorem test_device_error :
    deviceError (parseFrame configT (frame3WithError)) = some .noMedia := by decide
/-- R109: a query reply of the wrong length, and one with a device error and another header, are logged. -/
theorem test_log_wrong_length : statusEntries 31 (parseReply configT (frame3.take 31)) = [.wrongLength 31] := by decide
theorem test_log_device_error : statusEntries 32 (parseReply configT frame3WithError) =
    [.headerMismatch, .deviceError .noMedia 0x01#8 0x10#8] := by decide
theorem test_configure_bounds :
    refusalOf (setConfiguration { Settings.atReset with L := 0 } State.reset) = some .badConfiguration := by rfl

/-- R62: the example of the listing notation, between braces. -/
theorem test_listing : tokenListings 2 [0xF1#8, 0xFF#8] = ["REP 16, FF"] := by decide +kernel

/-! ## Witnesses: states and operands that meet the hypotheses of the statements, clause by clause -/

/-- A stream of one good packet, sixteen bytes FF. -/
def goodPayload : List Byte := [0xF1#8, 0xFF#8]

/-- A DECODE in progress at offset 0 of the stream `bs`. -/
def inDecode (bs : List Byte) : State := startDecode false (withInput bs)

/-- A DECODE in progress inside the payload `p`, at offset 0. -/
def inPayload (p : List Byte) : State :=
  { withInput (wrapPacket Format.source p) with activity := .payload, n := p.length, started := true }

/-- The machine with moves of the host to come. -/
def withMoves (ms : List Move) : State := { withInput goodPayload with host := ms }

theorem witness_good_packets : GoodPackets State.reset.cfg [goodPayload] [List.replicate 16 0xFF#8] where
  unpacked := by rfl
  short := by decide
  line_len := by decide

theorem witness_StepKeepsGood : ∃ s t : State, s.Good ∧ s.activity = .payload ∧ step s = .next t :=
  ⟨inPayload goodPayload, _,
    { cfg_wf := by decide, inp_wf := by decide, out_wf := by decide, inp_le := by decide, out_le := by decide
      line_len := by decide, pos_le := by decide, out_lines := by decide, in_payload := by decide
      no_payload := by decide, result_ok := by decide
      sf_ok := fun _ h => (nomatch h), cls_ok := fun _ h => (nomatch h), not_started := by decide
      job_good := ⟨by decide, by decide, by decide⟩ }, rfl, rfl⟩

theorem witness_DecodeReadsWhatEncodeWrites :
    (Instr.xfer (List.replicate 65535 0x00#8)).wf Format.source = true ∧ (Instr.lit (List.replicate 128 0x00#8)).wf Format.source = true ∧
    (Instr.rep 128 0x00#8).wf Format.source = true ∧ (Instr.rep 2 0x00#8).wf Format.source = true ∧ (Instr.flush 1).wf Format.source = true := by
  simp only [Instr.wf, List.length_replicate]
  decide

theorem witness_EncodeWritesWhatDecodeReads :
    (∃ w i rest, decode Format.source (.op w) = .ok (i, rest)) ∧ (∃ bs i rest, decode Format.source (.packet bs) = .ok (i, rest)) ∧
    (∃ bs i rest, decode Format.source (.token bs) = .ok (i, rest)) ∧ ∃ bs i rest, decode Format.source (.command bs) = .ok (i, rest) :=
  ⟨⟨_, _, _, test_decode_classify⟩, ⟨_, _, _, test_decode_xfer⟩, ⟨_, _, _, test_decode_lit⟩,
    ⟨_, _, _, test_decode_margin⟩⟩

theorem witness_PacketLengthIsLittleEndian : (List.replicate 65535 0x00#8).length ≤ 65535 := by
  rw [List.length_replicate]

theorem witness_StepRunsTheDecodedInstruction :
    (∃ (s : State) (c : Code) (i : Instr) (rest : List Byte), fetch s = some c ∧ decode s.cfg.toFormat c = .ok (i, rest)) ∧
    (∃ (s : State) (w : OpWord) (rest : List Move), s.activity = .idle ∧ s.host = .present w :: rest) ∧
    (∃ (s : State) (bs : List Byte) (rest : List Move), s.activity = .idle ∧ s.host = .command bs :: rest) ∧
    (∃ s : State, s.activity = .packet false ∧ s.host.head? ≠ some .reset ∧ s.pos < s.inp.length) ∧
    ∃ s : State, s.activity = .payload ∧ s.host.head? ≠ some .reset ∧ s.q < s.n :=
  ⟨⟨withMoves [.present 3#18], _, _, _, rfl, rfl⟩, ⟨withMoves [.present 3#18], _, _, rfl, rfl⟩,
    ⟨withMoves [.command [0x1A#8]], _, _, rfl, rfl⟩, ⟨inDecode [0x47#8], by decide⟩,
    ⟨inPayload goodPayload, by decide⟩⟩

theorem witness_MalformedStreamCodeEndsTheDecode :
    (∃ s : State, s.host.head? ≠ some .reset ∧ s.activity = .packet false ∧
      s.inp.bytes.drop s.pos = [s.cfg.xferOp] ∧ 0 < s.cfg.lenBytes) ∧
    (∃ s : State, s.host.head? ≠ some .reset ∧ s.activity = .packet false ∧
      s.inp.bytes.drop s.pos = [s.cfg.xferOp, 0x02#8] ∧ 1 < s.cfg.lenBytes) ∧
    (∃ (s : State) (len body : List Byte), s.host.head? ≠ some .reset ∧ s.activity = .packet false ∧
      s.inp.bytes.drop s.pos = s.cfg.xferOp :: (len ++ body) ∧ len.length = s.cfg.lenBytes ∧
      body.length < leNat len) ∧
    ∃ s : State, s.host.head? ≠ some .reset ∧ s.activity = .payload ∧ s.q < s.n ∧
      readToken (payloadLeft s) = .truncated :=
  ⟨⟨inDecode [0x47#8], by decide⟩, ⟨inDecode [0x47#8, 0x02#8], by decide⟩,
    ⟨inDecode [0x47#8, 0x01#8, 0x00#8], [0x01#8, 0x00#8], [], by decide⟩, ⟨inPayload [0xF1#8], by decide⟩⟩

theorem witness_ObservedDecodeIsTheOperation : ∃ s : State, s.activity = .idle ∧ 1 ≤ s.cfg.lenBytes ∧ s.inp ≠ [] :=
  ⟨withInput (wrapPacket Format.source goodPayload), by decide⟩

theorem witness_ResetAbandonsTheOperation :
    ∃ (s : State) (rest : List Move), s.host = .reset :: rest ∧ s.activity = .packet false :=
  ⟨{ inDecode [0x47#8] with host := [.reset] }, [], rfl, rfl⟩

theorem witness_ReadingAnEmptyResultFaults :
    (∃ s : State, s.activity = .idle ∧ s.host = [.readSf]) ∧ ∃ s : State, s.activity = .idle ∧ s.host = [.readClass] :=
  ⟨⟨withMoves [.readSf], rfl, rfl⟩, ⟨withMoves [.readClass], rfl, rfl⟩⟩

theorem witness_ConfigurationIsFixed :
    ∃ s t : State, step s = .next t ∧ t.cfg ≠ s.cfg ∧ s.host = [.configure configT.toSettings] :=
  ⟨withMoves [.configure configT.toSettings], _, rfl, by decide, rfl⟩

theorem witness_ResultsHaveOneWriter :
    (∃ s t : State, step s = .next t ∧ t.sf ≠ s.sf) ∧ ∃ s t : State, step s = .next t ∧ t.cls ≠ s.cls :=
  ⟨⟨{ withFrame frame3 with host := [.present 2#18] }, _, rfl, by decide⟩,
    ⟨withMoves [.present 3#18], _, rfl, by decide⟩⟩

theorem witness_OnlyTheHostWritesTheInput :
    (∃ s t : State, step s = .next t ∧ t.inp ≠ s.inp ∧ s.activity = .idle ∧ s.host = [.load [0x01#8]]) ∧
    (∃ s t : State, step s = .next t ∧ t.inp ≠ s.inp ∧ s.host = [.reset]) ∧
    ∃ s t : State, step s = .next t ∧ t.inp ≠ s.inp ∧ fetch s = some (.command [0x1B#8, 0x69#8, 0x53#8]) :=
  ⟨⟨withMoves [.load [0x01#8]], _, rfl, by decide, rfl, rfl⟩, ⟨withMoves [.reset], _, rfl, by decide, rfl⟩,
    ⟨{ withMoves [.command [0x1B#8, 0x69#8, 0x53#8]] with job := { Job.atIdle with inbox := [.whole [0x01#8]] } },
      _, rfl, by decide, rfl⟩⟩

theorem witness_OperationsDependOnTheInputAlone :
    ∃ s s' t : State, s ≠ s' ∧ s'.cfg = s.cfg ∧ s'.inp = s.inp ∧ exec .decode s = .next t :=
  ⟨withInput (wrapPacket Format.source goodPayload), inDecode (wrapPacket Format.source goodPayload), _, by decide, rfl, rfl, rfl⟩

theorem witness_EncodeEmitsOnePacketPerLine :
    ∃ s : State, s.inp.length % s.cfg.L = 0 ∧ 0 < s.inp.length ∧ (encodeStream s.cfg s.inp).length ≤ s.cfg.maxBytes :=
  ⟨withInput (List.replicate 16 0xFF#8), by decide +kernel⟩

theorem witness_EncodeRejectsAPartialLine : ∃ s : State, s.inp.length % s.cfg.L ≠ 0 :=
  ⟨withInput [0xFF#8], by decide⟩

theorem witness_EncodeStopsOnlyWhenTheOutputIsTooLong : ∃ s : State, (∀ t, exec .encode s ≠ .next t) ∧
    s.inp.length % s.cfg.L = 0 ∧ s.cfg.maxBytes < (encodeStream s.cfg s.inp).length :=
  ⟨{ withInput (List.replicate 16 0xFF#8) with cfg := { configT with maxBytes := 4 } }, fun _ h => (nomatch h),
    by decide +kernel⟩

theorem witness_PackedLengthIsBounded : 1 ≤ [0xC3#8].length ∧
    (List.replicate 128 0x00#8).length ≤ 128 := by
  rw [List.length_replicate]; decide

theorem witness_EncodeIsLineByLine :
    1 ≤ configT.L ∧ (List.replicate 32 0x00#8).length % configT.L = 0 := by decide

theorem witness_EncodedLengthIsBounded : ∃ s t : State,
    1 ≤ s.cfg.L ∧ exec .encode s = .next t ∧ t.result.code = .ok :=
  ⟨withInput (List.replicate 16 0xFF#8), _, by decide, rfl, rfl⟩

theorem witness_DecodeInvertsEncode : ∃ s t : State, s.cfg.wf = true ∧ s.inp.wf ∧ 0 < s.inp.length ∧
    s.inp.length ≤ s.cfg.maxBytes ∧ exec .encode s = .next t ∧ t.result.code = .ok :=
  ⟨withInput (List.replicate 16 0xFF#8), _, by decide, by decide, by decide, by decide, rfl, rfl⟩

theorem witness_DecodeAcceptsExactlyTheGoodStreams : ∃ (s : State) (payloads lines : List (List Byte)),
    GoodPackets s.cfg payloads lines ∧ s.inp.bytes = packetStream s.cfg.toFormat payloads ∧
    lines.flatten.length ≤ s.cfg.maxBytes ∧ lines ≠ [] :=
  ⟨withInput (packetStream Format.source [goodPayload]), _, _, witness_good_packets, by decide, by decide, by decide⟩

theorem witness_UnexpectedOpcodeRaises : ∃ (s : State) (b : Byte) (payloads lines : List (List Byte)), b ≠ 0x47#8 ∧
    GoodPackets s.cfg payloads lines ∧ lines.flatten.length ≤ s.cfg.maxBytes ∧
    s.inp.bytes = packetStream s.cfg.toFormat payloads ++ [b] :=
  ⟨withInput (packetStream Format.source [goodPayload] ++ [0x5A#8]), 0x5A#8, _, _, by decide, witness_good_packets, by decide,
    by decide⟩

theorem witness_DecodeReportsTheFirstBadPacket :
    GoodPackets State.reset.cfg [goodPayload] [List.replicate 16 0xFF#8] ∧
    (withInput (packetStream Format.source [goodPayload] ++ [0x47#8])).inp.bytes = packetStream Format.source [goodPayload] ++ [0x47#8] ∧
    (withInput (packetStream Format.source [goodPayload] ++ [0x47#8, 0x02#8])).inp.bytes =
      packetStream Format.source [goodPayload] ++ [0x47#8, 0x02#8] ∧
    ([] : List Byte).length < (0x01#8 : Byte).toNat + 256 * (0x00#8 : Byte).toNat ∧
    unpack [0xF1#8] = .error 0 ∧ unpack [] = .ok [] ∧ ([] : List Byte).length ≠ State.reset.cfg.L :=
  ⟨witness_good_packets, by decide, by decide, by decide, rfl, rfl, by decide⟩

theorem witness_DecodingTwiceIsTheSame : ∃ s t : State, exec .decode s = .next t :=
  ⟨withInput (wrapPacket Format.source goodPayload), _, rfl⟩

theorem witness_DecodeStopsOnlyWhenTheOutputIsTooLong : ∃ (s : State) (payloads lines : List (List Byte)),
    (∀ t, exec .decode s ≠ .next t) ∧ GoodPackets s.cfg payloads lines ∧
    s.inp.bytes = packetStream s.cfg.toFormat payloads ++ [] ∧ s.cfg.maxBytes < lines.flatten.length :=
  ⟨{ withInput (wrapPacket Format.source goodPayload) with cfg := { configT with maxBytes := 8 } }, [goodPayload],
    [List.replicate 16 0xFF#8], fun _ h => (nomatch h), ⟨by rfl, by decide, by decide⟩, by decide, by decide⟩

theorem witness_XferChecksTheLineLength :
    (∃ (s : State) (p u : List Byte), unpack p = .ok u ∧ u.length ≠ s.cfg.L) ∧
    ∃ (s : State) (p u : List Byte), unpack p = .ok u ∧ u.length = s.cfg.L ∧
      s.out.length + s.cfg.L ≤ s.cfg.maxBytes :=
  ⟨⟨inDecode [], [], [], rfl, by decide⟩, ⟨inDecode [], goodPayload, _, rfl, by decide, by decide⟩⟩

theorem witness_XferRejectsAnIncompleteToken : unpack [0xF3#8, 0x00#8, 0x01#8, 0xAA#8] = .error 2 := rfl

theorem witness_parse_of_a_frame : (withFrame frame3).cfg.toFormat.wf = true ∧
    (withFrame frame3).inp.length = (withFrame frame3).cfg.frameLen := by decide

theorem witness_ParseRejectsEveryOtherLength : (withFrame (frame3.take 31)).inp.length ≠ configT.frameLen := by decide

theorem witness_ParseIgnoresTheUnnamedBytes : ∃ s s' t t' : State, s ≠ s' ∧ s.cfg = s'.cfg ∧
    s.inp.length = s.cfg.frameLen ∧ s'.inp.length = s.cfg.frameLen ∧ ¬ (12 < s.cfg.magicLen ∨ 12 ∈ s.cfg.offsets) ∧
    s'.inp.bytes = s.inp.bytes.set 12 0xAA#8 ∧ exec .parse s = .next t ∧ exec .parse s' = .next t' :=
  ⟨withFrame frame3, withFrame (frame3.set 12 0xAA#8), _, _, by decide, rfl, by decide, by decide,
    by decide, by decide, rfl, rfl⟩

theorem witness_ParseAndClassifyAgree : ∃ s t t' : State, ∃ f, s.inp.length = s.cfg.frameLen ∧ exec .parse s = .next t ∧
    t.sf = some f ∧ exec (.classify f.error1 f.error2) s = .next t' :=
  ⟨withFrame frame3, _, _, _, by decide, rfl, rfl, rfl⟩

theorem witness_ClassifyFollowsTheTable : State.reset.cfg.e1Flags = Config.defaultE1Flags ∧
    State.reset.cfg.e2Flags = Config.defaultE2Flags := ⟨rfl, rfl⟩

theorem witness_ClassifyPriority :
    (∃ (s : State) (before after : List (Byte × ErrClass)), s.cfg.e1Flags = before ++ (0x02#8, .endOfMedia) :: after ∧
      (∀ f ∈ before, 0x06#8 &&& f.1 = 0#8) ∧ (0x06#8 &&& 0x02#8 ≠ 0#8)) ∧
    ∃ (s : State) (before after : List (Byte × ErrClass)), (∀ f ∈ s.cfg.e1Flags, 0xF8#8 &&& f.1 = 0#8) ∧
      s.cfg.e2Flags = before ++ (0x10#8, .coverOpen) :: after ∧ (∀ f ∈ before, 0x10#8 &&& f.1 = 0#8) ∧
      (0x10#8 &&& 0x10#8 ≠ 0#8) :=
  ⟨⟨State.reset, [(0x01#8, .noMedia)], [(0x04#8, .tapeCutJam)], rfl, by decide, by decide⟩,
    ⟨State.reset, Config.defaultE2Flags.take 4, [], by decide, rfl, by decide, by decide⟩⟩

theorem witness_ClassifyWithoutAMatchIsUnknown :
    (∀ f ∈ State.reset.cfg.e1Flags, 0xF8#8 &&& f.1 = 0#8) ∧ (∀ f ∈ State.reset.cfg.e2Flags, 0xE0#8 &&& f.1 = 0#8) := by
  decide

theorem witness_OperationFrame :
    (∃ s t, exec .encode s = .next t) ∧ (∃ s t, exec .decode s = .next t) ∧ (∃ s t, exec .parse s = .next t) ∧
    (∃ s t, exec (.classify 0x01#8 0x10#8) s = .next t) ∧ ∃ s t, exec (.illegalStreamOpcode 0x1B#8) s = .next t :=
  ⟨⟨withInput [], _, rfl⟩, ⟨withInput [], _, rfl⟩, ⟨withInput [], _, rfl⟩, ⟨withInput [], _, rfl⟩,
    ⟨inDecode [0x1B#8], _, rfl⟩⟩

theorem witness_XferFrame : ∃ (s t : State), s.out.wf ∧ s.activity ≠ .idle ∧ exec (.xfer goodPayload) s = .next t ∧
    t.activity ≠ .idle :=
  ⟨inDecode (wrapPacket Format.source goodPayload), _, by decide, by decide, rfl, by decide⟩

theorem witness_ErrorsDeliverNothing :
    (∃ s t, exec .encode s = .next t ∧ t.result.code ≠ .ok) ∧ (∃ s t, exec .decode s = .next t ∧ t.result.code ≠ .ok) ∧
    ∃ s t, exec .parse s = .next t ∧ t.result.code ≠ .ok :=
  ⟨⟨withInput [0xFF#8], _, rfl, by decide⟩, ⟨withInput [0xFF#8], _, rfl, by decide⟩, ⟨withInput [], _, rfl, by decide⟩⟩

theorem witness_AppendReadsBack : Memory.wf (Memory.ofBytes [0x01#8, 0x02#8]) := by decide

theorem witness_CanWrite : CanWrite State.reset := by
  constructor <;> decide

/-- The machine after reset with `inbox` waiting, and a job that has done `cursor` steps. -/
def withInbox (cursor : Nat) (inbox : List Reply) : State :=
  { State.reset with job := { Job.atIdle with inbox := inbox, cursor := cursor, stage := stageAt cursor } }

/-- One clause with QUERY_STATUS next and one without, and a read that leaves bytes behind. -/
theorem witness_QueryStatusHandsTheReplyOver :
    (∃ (s : State) (bs : List Byte) (rest : List Reply), CanWrite s ∧
      readExact s.cfg.frameLen [] s.job.inbox = .done bs rest ∧ bs.length ≤ s.cfg.maxBytes ∧
      expectedStep s.job.cursor = some .queryStatus) ∧
    (∃ (s : State) (bs : List Byte) (rest : List Reply), CanWrite s ∧
      readExact s.cfg.frameLen [] s.job.inbox = .done bs rest ∧ bs.length ≤ s.cfg.maxBytes ∧
      expectedStep s.job.cursor ≠ some .queryStatus) ∧
    (∀ w, Reply.whole w ∉ [Reply.data [0x01#8], .data [0x02#8, 0x03#8], .ioError]) ∧
    readExact 2 [] [.data [0x01#8], .data [0x02#8, 0x03#8], .ioError] =
      .done [0x01#8, 0x02#8] [.data [0x03#8], .ioError] :=
  ⟨⟨withInbox 2 [.data frame3], frame3, [], ⟨by decide, by decide⟩, by rfl, by decide, by decide⟩,
    ⟨withInbox 0 [.whole [0x01#8]], [0x01#8], [], ⟨by decide, by decide⟩, by rfl, by decide, by decide⟩,
    by simp, by decide⟩

theorem witness_QueryStatusReadErrorsFailTheJob :
    (∃ s : State, CanWrite s ∧ s.job.cursor = 2 ∧
      readExact s.cfg.frameLen [] s.job.inbox = .timedOut ∧ s.job.inbox ≠ []) ∧
    ∃ s : State, CanWrite s ∧ s.job.cursor ≠ 2 ∧ readExact s.cfg.frameLen [] s.job.inbox = .failed [] :=
  ⟨⟨withInbox 2 [.data [0x80#8]], ⟨by decide, by decide⟩, rfl, by decide, by decide⟩,
    ⟨withInbox 1 [.data [0x80#8], .ioError], ⟨by decide, by decide⟩, by decide, by decide⟩⟩

theorem witness_CommandsMoveTheJobOn :
    (∃ (i : Instr) (st : JobStep) (s : State), commandStep i = some st ∧ i ≠ .queryStatus ∧ CanWrite s ∧
      expectedStep s.job.cursor = some st) ∧
    ∃ (i : Instr) (st : JobStep) (s : State), commandStep i = some st ∧ i ≠ .queryStatus ∧ CanWrite s ∧
      expectedStep s.job.cursor ≠ some st :=
  ⟨⟨.enterRaster 0x01#8, .enterRaster, State.reset, rfl, by decide, witness_CanWrite, by decide⟩,
    ⟨.printAndFeed, .printAndFeed, State.reset, rfl, by decide, witness_CanWrite, by decide⟩⟩

theorem witness_WriteErrorsFailTheJob :
    (∃ s : State, jobOver s.job = false ∧ s.job.link = .down) ∧
    (∃ s : State, jobOver s.job = false ∧ s.job.link = .stalled) ∧ ∃ s : State, jobOver s.job = true :=
  ⟨⟨{ State.reset with job := { Job.atIdle with link := .down } }, by decide, rfl⟩,
    ⟨{ State.reset with job := { Job.atIdle with link := .stalled } }, by decide, rfl⟩,
    ⟨{ State.reset with job := { Job.atIdle with stage := .closed } }, by decide⟩⟩

theorem witness_CommandFrame : ∃ s t : State, commandStep .queryStatus = some .queryStatus ∧
    exec .queryStatus s = .next t :=
  ⟨State.reset, _, rfl, rfl⟩

/-- A `PrintConfig` and a media format. -/
def somePrint : PrintConfig := ⟨false, true, false, false, true, false, false, 0x000E#16⟩
def someMedia : MediaFormat := ⟨true, true, 12, 0⟩

/-- One black line, and the moves of a job that prints it. -/
def blackLine : List Byte := List.replicate 16 0xFF#8
def someJob : List Move := (jobMoves Config.atReset 0x01#8 someMedia somePrint blackLine).getD []

theorem jobMoves_blackLine : jobMoves Config.atReset 0x01#8 someMedia somePrint blackLine = some someJob := rfl

/-- That job to come, with a status that decodes and then `last` waiting. -/
def beforeJob (last : List Byte) : State :=
  { State.reset with
    host := .startJob :: .openTransport "bt" (.bluetooth [false, true] true) :: someJob
    job := { Job.atIdle with inbox := [.data frame3, .whole last] } }

/-- The hypotheses of PrintJobRunsInOrder with `last` as the last reply. -/
def JobCanRun (last : List Byte) : Prop :=
  ∃ (s : State) (bitmap : List Byte) (mid rest : List Reply) (moves : List Move) (ch : Channel),
    s.cfg.wf = true ∧ s.activity = .idle ∧ jobMoves s.cfg 0x01#8 someMedia somePrint bitmap = some moves ∧
    s.host = .startJob :: .openTransport "bt" ch :: moves ∧ opens ch = true ∧
    readExact s.cfg.frameLen [] s.job.inbox = .done frame3 mid ∧
    readExact s.cfg.frameLen [] mid = .done last rest ∧ frame3.length ≤ s.cfg.maxBytes ∧
    last.length ≤ s.cfg.maxBytes ∧ bitmap.length ≤ s.cfg.maxBytes ∧ bitmap.length % s.cfg.L = 0 ∧
    0 < bitmap.length ∧ (encodeStream s.cfg (Memory.ofBytes bitmap)).length ≤ s.cfg.maxBytes

theorem blackLine_fits : Config.atReset.wf = true ∧ frame3.length ≤ Config.atReset.maxBytes ∧
    32 ≤ Config.atReset.maxBytes ∧ blackLine.length ≤ Config.atReset.maxBytes ∧
    blackLine.length % Config.atReset.L = 0 ∧ 0 < blackLine.length ∧
    (encodeStream Config.atReset (Memory.ofBytes blackLine)).length ≤ Config.atReset.maxBytes := by
  decide +kernel

theorem job_can_run {last : List Byte} (h : last.length ≤ 32) : JobCanRun last := by
  obtain ⟨hw, hf, hm, hb, hl, h0, he⟩ := blackLine_fits
  exact ⟨beforeJob last, blackLine, [.whole last], [], someJob, .bluetooth [false, true] true, hw, rfl,
    jobMoves_blackLine, rfl, rfl, rfl, rfl, hf, Nat.le_trans h hm, hb, hl, h0, he⟩

/-- F3 with no error bit. -/
def frameWithoutError : List Byte := frame3.set 9 0x00#8

/-- A last reply for each clause: a frame without an error, one with an error, one of the wrong length. -/
theorem witness_PrintJobRunsInOrder :
    (JobCanRun frameWithoutError ∧ frameWithoutError.length = Config.atReset.frameLen ∧
      (parseFrame Config.atReset frameWithoutError).error1 = 0#8 ∧
      (parseFrame Config.atReset frameWithoutError).error2 = 0#8) ∧
    (JobCanRun frame3 ∧ frame3.length = Config.atReset.frameLen ∧
      (parseFrame Config.atReset frame3).error2 ≠ 0#8) ∧
    (JobCanRun [0x80#8] ∧ ([0x80#8] : List Byte).length ≠ Config.atReset.frameLen) :=
  ⟨⟨job_can_run (by decide), by decide, by decide, by decide⟩, ⟨job_can_run (by decide), by decide, by decide⟩,
    ⟨job_can_run (by decide), by decide⟩⟩

/-- Both sides of the limit of 65535 lines. -/
theorem witness_LineCountIsThePacketCount :
    (Memory.ofBytes (List.replicate 32 0x00#8)).length / Config.atReset.L ≤ 65535 ∧
    65535 < (List.replicate (16 * 65536) 0x00#8).length / Config.atReset.L := by
  rw [List.length_replicate]; decide

/-- A transport that opens, one without its service, one whose channel does not open, and the lookups at the limit. -/
theorem witness_ConnectTriesTenTimes :
    (∃ (s : State) (ch : Channel), s.activity = .idle ∧ s.host = [.openTransport "tty" ch] ∧ jobOver s.job = false ∧
      openError ch = none) ∧
    (∃ (s : State) (ch : Channel), s.activity = .idle ∧ s.host = [.openTransport "bt" ch] ∧ jobOver s.job = false ∧
      openError ch = some .serviceNotFound) ∧
    (∃ (s : State) (ch : Channel), s.activity = .idle ∧ s.host = [.openTransport "tty" ch] ∧ jobOver s.job = false ∧
      openError ch = some .openFailed) ∧
    ∃ i, i < 10 ∧ (List.replicate 9 false ++ [true])[i]? = some true :=
  ⟨⟨withMoves [.openTransport "tty" (.serial true)], .serial true, rfl, rfl, rfl, rfl⟩,
    ⟨withMoves [.openTransport "bt" (.bluetooth (List.replicate 10 false ++ [true]) true)],
      .bluetooth (List.replicate 10 false ++ [true]) true, rfl, rfl, rfl, by decide⟩,
    ⟨withMoves [.openTransport "tty" (.serial false)], .serial false, rfl, rfl, rfl, rfl⟩, ⟨9, by decide⟩⟩

/-- Places for the seven fields, no two of them the same. -/
def somePlace : Toggle → BitPlace
  | .mirrorPrinting => ⟨.mode, 7, true⟩
  | .autoTapeCut => ⟨.mode, 6, true⟩
  | .halfCut => ⟨.expanded, 2, true⟩
  | .chainPrint => ⟨.expanded, 3, false⟩
  | .labelEndCut => ⟨.expanded, 4, true⟩
  | .highResolution => ⟨.expanded, 6, true⟩
  | .bufferClearSuppression => ⟨.expanded, 7, true⟩

theorem witness_FlagBytesCarryTheirFields :
    (∀ t t', (somePlace t).byte = (somePlace t').byte → (somePlace t).bit = (somePlace t').bit → t = t') ∧
    (∀ t, (somePlace t).byte = .mode →
      toggleOf somePrint t = toggleOf { somePrint with halfCut := true, feedMargin := 0#16 } t) := by
  constructor
  · intro t t'; cases t <;> cases t' <;> decide
  · intro t; cases t <;> decide

end Sys2Proof.Tests
end

/-! ## 00_scope.md: the byte spaces -/

section

namespace Sys2Proof.Machine

open Sys2Proof

/-- No byte of a canonical space exists at or above its length (R37, R38). -/
theorem Memory.read_eq_none {m : Memory} {a : Nat} (h : m.wf) (ha : m.length ≤ a) : m.read a = none := by
  rw [Memory.read_eq h, List.getElem?_eq_none]
  rwa [Memory.length_bytes]

/-- One byte of a canonical space after an append: an old byte below the old length, else one of the bytes appended. -/
theorem read_memAppend {m : Memory} (h : m.wf) (v : List Byte) (a : Nat) :
    (memAppend m v).read a = if a < m.length then m.read a else v[a - m.length]? := by
  rw [memAppend, Memory.read_ofBytes, List.getElem?_append, Memory.length_bytes, Memory.read_eq h]

/-- Settles O49: the space after an append is made from bytes, so each clause is a fact about lists. -/
theorem appendReadsBack : Obligations.AppendReadsBack := fun m v a hm =>
  ⟨memAppend_wf m v, memAppend_length m v, read_memAppend hm v a, Memory.read_eq_none hm⟩

end Sys2Proof.Machine

end

/-! ## 00_scope.md: the frame of the wire commands -/

section

namespace Sys2Proof.Machine

open Sys2Proof

/-- What a wire command leaves alone when it goes on from `s` to `t`; the moves to come stay unless the job failed, which
aborts them (R139, log 34). -/
structure CommandLeaves (s t : State) : Prop where
  block : SameBlock { s with inp := t.inp } t
  wire : s.job.wire <+: t.job.wire
  name : t.job.name = s.job.name
  final : t.job.final = s.job.final
  log : t.job.log = s.job.log
  host : t.host = s.host ∨ (t.job.stage = .failed ∧ t.host = abortSequence s.host)

/-- What a command that reads no reply leaves alone. -/
structure WriteLeaves (s t : State) : Prop extends CommandLeaves s t where
  inp : t.inp = s.inp
  query : t.job.query = s.job.query

/-- A job that is not over has not failed. -/
theorem stage_ne_failed {j : Job} (h : jobOver j = false) : j.stage ≠ .failed := by
  intro hf
  simp [jobOver, hf] at h

/-- A write that fails the job leaves alone what a write does. -/
theorem failJob_writePart_leaves (at_ : Stage) (e : IoError) (bs : List Byte) (s : State) :
    WriteLeaves s (failJob at_ e (writePart bs s)) where
  block := by constructor <;> rfl
  wire := by
    obtain ⟨k, -, hw⟩ := writePart_wire bs s
    exact ⟨bs.take k, hw.symm⟩
  name := rfl
  final := rfl
  log := rfl
  host := .inr ⟨rfl, rfl⟩
  inp := rfl
  query := rfl

/-- Sending bytes leaves alone what a write does, however it goes. -/
theorem sendBytes_leaves (step : JobStep) (bs : List Byte) (s : State) : WriteLeaves s (sendBytes step bs s) := by
  obtain ⟨-, h⟩ | ⟨-, -, h⟩ | ⟨-, -, h⟩ | ⟨-, -, h⟩ := sendBytes_cases step bs s <;> rw [h]
  · exact ⟨⟨by constructor <;> rfl, List.prefix_refl _, rfl, rfl, rfl, .inl rfl⟩, rfl, rfl⟩
  · exact ⟨⟨by constructor <;> rfl, by simp, by simp, by simp, by simp, .inl rfl⟩, rfl, by simp⟩
  · exact failJob_writePart_leaves _ _ _ _
  · exact failJob_writePart_leaves _ _ _ _

/-- The operand bytes that the job remembers are none of what a command leaves alone. -/
theorem rememberMedia_leaves (flags : List Byte) {s t : State} (h : WriteLeaves s t) :
    WriteLeaves s (rememberMedia flags t) := by
  unfold rememberMedia
  split
  · exact h
  · obtain ⟨⟨block, wire, name, final, log, host⟩, inp, query⟩ := h
    exact ⟨⟨{ block with }, wire, name, final, log, host⟩, inp, query⟩

/-- Every command but QUERY_STATUS writes its bytes; SET_MEDIA_FORMAT has the job remember its operands then. -/
theorem exec_command {i : Instr} {st : JobStep} (hc : commandStep i = some st) (hi : i ≠ .queryStatus) (s : State) :
    exec i s = .next (sendBytes st (commandBytes i) s) ∨
    ∃ flags, exec i s = .next (rememberMedia flags (sendBytes st (commandBytes i) s)) := by
  cases i
  case queryStatus => exact absurd rfl hi
  case setMediaFormat flags => cases hc; exact .inr ⟨flags, rfl⟩
  all_goals cases hc
  all_goals exact .inl rfl

/-- A reply that is read, or the failure to read one, leaves alone what a command does. -/
theorem receiveReply_leaves {s t : State} (h : receiveReply s = .next t) : CommandLeaves s t := by
  obtain ⟨-, rfl⟩ | ⟨rest, -, rfl⟩ | ⟨bs, rest, -, -, rfl⟩ := receiveReply_next h
  · exact ⟨by constructor <;> rfl, List.prefix_refl _, rfl, rfl, rfl, .inr ⟨rfl, rfl⟩⟩
  · exact ⟨by constructor <;> rfl, List.prefix_refl _, rfl, rfl, rfl, .inr ⟨rfl, rfl⟩⟩
  · exact ⟨by constructor <;> rfl, List.prefix_refl _, rfl, rfl, rfl, .inl rfl⟩

/-- A reply kept as the first status leaves alone what a command does. -/
theorem keepQuery_leaves {a : Answer} {s t : State} (ha : ∀ v, a = .next v → CommandLeaves s v)
    (h : keepReply keepQuery a = .next t) : CommandLeaves s t := by
  obtain ⟨v, hv, ⟨-, rfl⟩ | ⟨-, rfl⟩⟩ := keepReply_next h
  · exact ha t hv
  · obtain ⟨block, wire, name, final, log, host⟩ := ha v hv
    exact ⟨{ block with }, wire, name, final, log, host⟩

/-- Two moves that leave the block alone, one after the other. -/
theorem SameBlock.trans {s t u : State} (h : SameBlock s t) (h' : SameBlock t u) : SameBlock s u where
  cfg := h'.cfg.trans h.cfg
  inp := h'.inp.trans h.inp
  out := h'.out.trans h.out
  line := h'.line.trans h.line
  k := h'.k.trans h.k
  pos := h'.pos.trans h.pos
  u := h'.u.trans h.u
  q := h'.q.trans h.q
  n := h'.n.trans h.n
  result := h'.result.trans h.result
  sf := h'.sf.trans h.sf
  cls := h'.cls.trans h.cls
  activity := h'.activity.trans h.activity
  started := h'.started.trans h.started

/-- Two parts of a command, the first of which keeps the job going. -/
theorem CommandLeaves.trans {s t u : State} (h : CommandLeaves s t) (hgo : t.job.stage ≠ .failed)
    (h' : CommandLeaves t u) : CommandLeaves s u := by
  have hhost : t.host = s.host := h.host.resolve_right fun hf => hgo hf.1
  have hblock : SameBlock { s with inp := u.inp } { t with inp := u.inp } := { h.block with inp := rfl }
  exact ⟨hblock.trans h'.block, h.wire.trans h'.wire, h'.name.trans h.name, h'.final.trans h.final,
    h'.log.trans h.log, hhost ▸ h'.host⟩

/-- QUERY_STATUS writes and, where the job goes on, reads. -/
theorem execQueryStatus_leaves {s t : State} (h : execQueryStatus s = .next t) : CommandLeaves s t := by
  have hsent := (sendBytes_leaves .queryStatus (commandBytes .queryStatus) s).toCommandLeaves
  unfold execQueryStatus at h
  split at h
  · exact next_injective h ▸ hsent
  · rename_i hover
    have hgo := stage_ne_failed (Bool.eq_false_iff.mpr hover)
    exact hsent.trans hgo (keepQuery_leaves (fun _ => receiveReply_leaves) h)

/-- A command but QUERY_STATUS leaves alone what a write does. -/
theorem exec_command_leaves {i : Instr} {st : JobStep} {s t : State} (hc : commandStep i = some st)
    (hi : i ≠ .queryStatus) (h : exec i s = .next t) : WriteLeaves s t := by
  have hsent := sendBytes_leaves st (commandBytes i) s
  obtain he | ⟨flags, he⟩ := exec_command hc hi s <;> rw [he] at h
  · exact next_injective h ▸ hsent
  · exact next_injective h ▸ rememberMedia_leaves flags hsent

/-- Settles O56: QUERY_STATUS is a write and then perhaps a read, every other command a write. -/
theorem commandFrame : Obligations.CommandFrame := by
  intro i st s t hc h
  by_cases hi : i = .queryStatus
  · subst hi
    obtain ⟨block, wire, name, final, log, host⟩ := execQueryStatus_leaves h
    exact ⟨block, absurd rfl, wire, name, final, log, absurd rfl, host⟩
  · obtain ⟨⟨block, wire, name, final, log, host⟩, inp, query⟩ := exec_command_leaves hc hi h
    exact ⟨block, fun _ => inp, wire, name, final, log, fun _ => query, host⟩

end Sys2Proof.Machine

end

/-! ## 00_scope.md: what a packet's and a token's reader take from the stream -/

section

namespace Sys2Proof

/-- A whole packet was read: the stream begins with its bytes, and its length fits the length field. -/
theorem readPacket_packet {p : Format} {bs payload rest : List Byte} (h : readPacket p bs = .packet payload rest) :
    bs = wrapPacket p payload ++ rest ∧ payload.length < 256 ^ p.lenBytes := by
  cases bs with
  | nil => cases h
  | cons b tl =>
    simp only [readPacket] at h
    split_ifs at h with hop htr hov
    injection h with hp hr
    have hlen : (tl.take p.lenBytes).length = p.lenBytes := by rw [List.length_take]; omega
    have hpl : payload.length = leNat (tl.take p.lenBytes) := by
      rw [← hp, List.length_take, List.length_drop]; omega
    constructor
    · have hfield : leBytes p.lenBytes payload.length = tl.take p.lenBytes := by
        have hw := leBytes_leNat (tl.take p.lenBytes)
        rwa [hlen, ← hpl] at hw
      rw [wrapPacket, hfield, ← hp, ← hr, List.cons_append, List.append_assoc, List.take_append_drop,
        List.take_append_drop, not_not.mp hop]
    · have hlt := leNat_lt (tl.take p.lenBytes)
      rwa [hlen, ← hpl] at hlt

/-- Only an empty stream has nothing where a packet must start. -/
theorem readPacket_exhausted {p : Format} {bs : List Byte} (h : readPacket p bs = .exhausted) : bs = [] := by
  cases bs with
  | nil => rfl
  | cons b tl =>
    simp only [readPacket] at h
    split_ifs at h

theorem emitLit_length (data : List Byte) : (emitLit data).length = 1 + data.length := by
  rw [emitLit, List.length_cons, Nat.add_comm]

theorem emitRep_length (count : Nat) (b : Byte) : (emitRep count b).length = 2 := rfl

/-- A whole token was read: the payload begins with its bytes (R54, R55). -/
theorem readToken_literal {bs data rest : List Byte} (h : readToken bs = .literal data rest) :
    bs = emitLit data ++ rest ∧ 1 ≤ data.length ∧ data.length ≤ 128 := by
  cases bs with
  | nil => cases h
  | cons c tl =>
    simp only [readToken] at h
    split_ifs at h with hc hl hn
    · injection h with hd hr
      have hlen : data.length = c.toNat + 1 := by rw [← hd, List.length_take]; omega
      refine ⟨?_, by omega, by omega⟩
      rw [emitLit, hlen, Nat.add_sub_cancel, BitVec.ofNat_toNat, BitVec.setWidth_eq, ← hd, ← hr, List.cons_append,
        List.take_append_drop]
    · cases tl with
      | nil => cases h
      | cons b tl => cases h

theorem readToken_run {bs rest : List Byte} {count : Nat} {b : Byte} (h : readToken bs = .run count b rest) :
    bs = emitRep count b ++ rest ∧ 2 ≤ count ∧ count ≤ 128 := by
  cases bs with
  | nil => cases h
  | cons c tl =>
    simp only [readToken] at h
    split_ifs at h with hc hl hn
    have hcl := c.isLt
    have h80 : c.toNat ≠ 128 := fun h' => hn (BitVec.eq_of_toNat_eq h')
    cases tl with
    | nil => cases h
    | cons b' tl =>
      injection h with hcount hb hr
      refine ⟨?_, by omega, by omega⟩
      rw [emitRep, ← hcount, hb, hr, show 257 - (257 - c.toNat) = c.toNat by omega, BitVec.ofNat_toNat,
        BitVec.setWidth_eq]
      rfl

theorem readToken_skip {bs rest : List Byte} (h : readToken bs = .skip rest) : bs = 0x80#8 :: rest := by
  cases bs with
  | nil => cases h
  | cons c tl =>
    simp only [readToken] at h
    split_ifs at h with hc hl hn
    · injection h with hr
      rw [hn, hr]
    · cases tl with
      | nil => cases h
      | cons b tl => cases h

/-- Only an empty payload has nothing where a token must start. -/
theorem readToken_exhausted {bs : List Byte} (h : readToken bs = .exhausted) : bs = [] := by
  cases bs with
  | nil => rfl
  | cons c tl =>
    simp only [readToken] at h
    split_ifs at h
    cases tl with
    | nil => cases h
    | cons b tl => cases h

end Sys2Proof

end

/-! ## 00_scope.md: runs of the machine -/

section

namespace Sys2Proof.Machine

open Sys2Proof

/-- What `n` more steps make of what a step answered. -/
def runOn (M : Host.Core) (n : Nat) :
    Host.Outcome M.State M.Fault M.Refusal → Host.Outcome M.State M.Fault M.Refusal
  | .next t => M.run n t
  | .fault f => .fault f
  | .refused r => .refused r

/-- A run of any machine begins with a step. -/
theorem run_succ_eq_runOn (M : Host.Core) (n : Nat) (s : M.State) : M.run (n + 1) s = runOn M n (M.step s) := by
  rw [Host.Core.run]
  cases M.step s <;> rfl

/-- A run of this machine begins with `step`. -/
theorem run_succ (n : Nat) (s : State) : Host.Core.run core (n + 1) s = runOn core n (step s) :=
  run_succ_eq_runOn core n s

/-- Within `k` more steps the answer `x` comes to `a`, and stays there. -/
def Reaches (k : Nat) (x a : Answer) : Prop := ∀ n, k ≤ n → runOn core n x = a

theorem Reaches.mono {k k' : Nat} {x a : Answer} (h : Reaches k x a) (hk : k ≤ k') : Reaches k' x a :=
  fun n hn => h n (hk.trans hn)

/-- One step more in front. -/
theorem Reaches.of_step {k : Nat} {s : State} {a : Answer} (h : Reaches k (step s) a) :
    Reaches (k + 1) (.next s) a := by
  intro n hn
  obtain ⟨m, rfl⟩ : ∃ m, n = m + 1 := ⟨n - 1, by omega⟩
  exact (run_succ m s).trans (h m (by omega))

/-- A refusal is the end of a run. -/
theorem reaches_refused (r : Refusal) : Reaches 0 (.refused r) (.refused r) := fun _ _ => rfl

/-- R22: an idle block without a move stays as it is. -/
theorem step_waiting {s : State} (ha : s.activity = .idle) (hh : s.host = []) : step s = .next s := by
  have hf : fetch s = none := by simp [fetch, ha, hh]
  rw [step_between hf, betweenInstructions, ha, hh]

/-- A run that comes to an idle block without a move has come to its end. -/
theorem reaches_waiting {s : State} (ha : s.activity = .idle) (hh : s.host = []) : Reaches 0 (.next s) (.next s) := by
  intro n _
  induction n with
  | zero => rfl
  | succ n ih => exact (run_succ n s).trans ((congrArg (runOn core n) (step_waiting ha hh)).trans (ih n.zero_le))

end Sys2Proof.Machine

end

/-! ## 00_scope.md: the steps of an observed DECODE -/

section

namespace Sys2Proof.Machine

open Sys2Proof

/-- The stream is walked through exactly at `POS = len(IN)` (R87). -/
theorem streamLeft_eq_nil {s : State} : streamLeft s = [] ↔ s.inp.length ≤ s.pos := by
  rw [streamLeft, List.drop_eq_nil_iff, Memory.length_bytes]

/-- Code fetched from `IN` stays where it is. -/
theorem accept_of_activity_ne_idle {s : State} (h : s.activity ≠ .idle) : accept s = s := by
  unfold accept
  split
  · exact absurd ‹_› h
  · rfl
  · rfl

/-- R85: what stands at the cursor is fetched, but for a whole packet that is observed token by token. -/
theorem fetch_packet {s : State} {tokens : Bool} (hr : s.host.head? ≠ some .reset) (ha : s.activity = .packet tokens) :
    fetch s =
      if s.pos < s.inp.length ∧ ¬ (tokens ∧ packetAtCursor s) then some (.packet (streamLeft s)) else none := by
  simp only [fetch, if_neg hr, ha]

/-- R89: the token at `q` is fetched while `q < n`. -/
theorem fetch_payload {s : State} (hr : s.host.head? ≠ some .reset) (ha : s.activity = .payload) :
    fetch s = if s.q < s.n then some (.token (payloadLeft s)) else none := by
  simp only [fetch, if_neg hr, ha]

/-- At a packet boundary without code to fetch the DECODE enters a payload or ends. -/
theorem betweenInstructions_packet {s : State} {tokens : Bool} (hr : s.host.head? ≠ some .reset)
    (ha : s.activity = .packet tokens) :
    betweenInstructions s = if s.pos < s.inp.length then .next (enterPayload s) else .next (endDecode s) := by
  unfold betweenInstructions
  split <;> simp_all

/-- In a payload without a token to fetch the DECODE leaves it. -/
theorem betweenInstructions_payload {s : State} (hr : s.host.head? ≠ some .reset) (ha : s.activity = .payload) :
    betweenInstructions s = leavePayload s := by
  unfold betweenInstructions
  split <;> simp_all

/-! ### At a packet boundary -/

/-- R85: the end of the stream is the end of the DECODE. -/
theorem step_endDecode {s : State} {tokens : Bool} (hr : s.host.head? ≠ some .reset)
    (ha : s.activity = .packet tokens) (hl : streamLeft s = []) : step s = .next (endDecode s) := by
  have hpos : ¬ s.pos < s.inp.length := Nat.not_lt.mpr (streamLeft_eq_nil.mp hl)
  have hf : fetch s = none := by rw [fetch_packet hr ha, if_neg (fun h => hpos h.1)]
  rw [step_between hf, betweenInstructions_packet hr ha, if_neg hpos]

/-- A packet's code at the cursor is fetched when it is not to be observed token by token. -/
theorem fetch_streamLeft {s : State} {tokens : Bool} (hr : s.host.head? ≠ some .reset)
    (ha : s.activity = .packet tokens) (hl : streamLeft s ≠ []) (hp : ¬ (tokens ∧ packetAtCursor s)) :
    fetch s = some (.packet (streamLeft s)) := by
  rw [fetch_packet hr ha, if_pos ⟨Nat.not_le.mp (mt streamLeft_eq_nil.mpr hl), hp⟩]

/-- A malformed header is fetched in both ways of observing. -/
theorem fetch_malformed {s : State} {tokens : Bool} (hr : s.host.head? ≠ some .reset)
    (ha : s.activity = .packet tokens) (he : readPacket s.cfg.toFormat (streamLeft s) ≠ .exhausted)
    (hp : packetAtCursor s = false) : fetch s = some (.packet (streamLeft s)) := by
  refine fetch_streamLeft hr ha (fun hl => he ?_) (by simp [hp])
  rw [hl, readPacket]

/-- R86: a byte that is no opcode. -/
theorem step_illegal {s : State} {tokens : Bool} {b : Byte} (hr : s.host.head? ≠ some .reset)
    (ha : s.activity = .packet tokens) (h : readPacket s.cfg.toFormat (streamLeft s) = .illegal b) :
    step s = .next (raiseFraming .unexpectedOpcode s.pos b.toNat s) := by
  have hf := fetch_malformed hr ha (by simp [h]) (by simp [packetAtCursor, h])
  have hd : decode s.cfg.toFormat (.packet (streamLeft s)) =
      .ok (.illegalStreamOpcode b, (streamLeft s).drop 1) := by simp only [decode, h]
  rw [step_decoded hf hd, accept_of_activity_ne_idle (by simp [ha])]
  rfl

/-- R87: a header cut short. -/
theorem step_headerTruncated {s : State} {tokens : Bool} {left : Nat} (hr : s.host.head? ≠ some .reset)
    (ha : s.activity = .packet tokens) (h : readPacket s.cfg.toFormat (streamLeft s) = .truncated left) :
    step s = .next (raiseFraming .headerTruncated s.pos left s) := by
  have hf := fetch_malformed hr ha (by simp [h]) (by simp [packetAtCursor, h])
  have hd : decode s.cfg.toFormat (.packet (streamLeft s)) = .error (.headerTruncated left) := by
    simp only [decode, h]
  rw [step_undecoded hf hd, accept_of_activity_ne_idle (by simp [ha])]
  rfl

/-- R87: a declared length beyond the end of the stream. -/
theorem step_lengthOverrun {s : State} {tokens : Bool} {n : Nat} (hr : s.host.head? ≠ some .reset)
    (ha : s.activity = .packet tokens) (h : readPacket s.cfg.toFormat (streamLeft s) = .overrun n) :
    step s = .next (raiseFraming .lengthOverrun s.pos n s) := by
  have hf := fetch_malformed hr ha (by simp [h]) (by simp [packetAtCursor, h])
  have hd : decode s.cfg.toFormat (.packet (streamLeft s)) = .error (.lengthOverrun n) := by
    simp only [decode, h]
  rw [step_undecoded hf hd, accept_of_activity_ne_idle (by simp [ha])]
  rfl

/-- A whole packet, observed packet by packet, is one XFER. -/
theorem step_xfer {s : State} {payload rest : List Byte} (hr : s.host.head? ≠ some .reset)
    (ha : s.activity = .packet false) (h : readPacket s.cfg.toFormat (streamLeft s) = .packet payload rest) :
    step s = packetEffect payload.length (readLine s.cfg s.out.length payload) s := by
  have hl : streamLeft s ≠ [] := fun hl => by rw [hl] at h; cases h
  have hf := fetch_streamLeft hr ha hl (by simp)
  have hd : decode s.cfg.toFormat (.packet (streamLeft s)) = .ok (.xfer payload, rest) := by simp only [decode, h]
  rw [step_decoded hf hd, accept_of_activity_ne_idle (by simp [ha])]
  rfl

/-- A whole packet, observed token by token, is entered (R85). -/
theorem step_enterPayload {s : State} {payload rest : List Byte} (hr : s.host.head? ≠ some .reset)
    (ha : s.activity = .packet true) (h : readPacket s.cfg.toFormat (streamLeft s) = .packet payload rest) :
    step s = .next { s with u := [], q := 0, n := payload.length, activity := .payload } := by
  have hl : streamLeft s ≠ [] := fun hl => by rw [hl] at h; cases h
  have hf : fetch s = none := by rw [fetch_packet hr ha, if_neg (by simp [packetAtCursor, h])]
  rw [step_between hf, betweenInstructions_packet hr ha, if_pos (Nat.not_le.mp (mt streamLeft_eq_nil.mpr hl))]
  simp only [enterPayload, h]

/-! ### In a payload -/

/-- The payload `s` is in lies in the stream, and the token in the payload. -/
structure InPayload (s : State) : Prop where
  activity : s.activity = .payload
  host : s.host = []
  inside : s.pos + s.cfg.headerLen + s.n ≤ s.inp.length
  q_le : s.q ≤ s.n

theorem InPayload.no_reset {s : State} (hs : InPayload s) : s.host.head? ≠ some .reset := by
  simp [hs.host]

theorem InPayload.length_left {s : State} (hs : InPayload s) : (payloadLeft s).length = s.n - s.q := by
  have h := hs.inside
  rw [payloadLeft, memRead_length]
  omega

/-- The state behind a payload, where its line is checked. -/
def afterPayload (s : State) : State := { s with u := [], q := 0, n := 0, activity := .packet true }

/-- R88: the end of the payload. -/
theorem InPayload.step_leave {s : State} (hs : InPayload s) (hl : payloadLeft s = []) :
    step s = packetEffect s.n (checkLine s.cfg s.out.length s.u) (afterPayload s) := by
  have hlen := hs.length_left
  rw [hl, List.length_nil] at hlen
  have hf : fetch s = none := by rw [fetch_payload hs.no_reset hs.activity, if_neg (by omega)]
  rw [step_between hf, betweenInstructions_payload hs.no_reset hs.activity]
  rfl

theorem InPayload.fetch_token {s : State} (hs : InPayload s) (he : readToken (payloadLeft s) ≠ .exhausted) :
    fetch s = some (.token (payloadLeft s)) := by
  have hl : payloadLeft s ≠ [] := fun hl => he (by rw [hl, readToken])
  have hlen := hs.length_left ▸ List.length_pos_iff.mpr hl
  rw [fetch_payload hs.no_reset hs.activity, if_pos (by omega)]

/-- R89: the payload ends inside a token. -/
theorem InPayload.step_tokenTruncated {s : State} (hs : InPayload s) (h : readToken (payloadLeft s) = .truncated) :
    step s = .next (raiseFraming .payloadMalformed s.pos s.q s) := by
  have hd : decode s.cfg.toFormat (.token (payloadLeft s)) = .error .tokenTruncated := by simp only [decode, h]
  rw [step_undecoded (hs.fetch_token (by simp [h])) hd, accept_of_activity_ne_idle (by simp [hs.activity])]
  rfl

/-- A whole token at `q` is run. -/
theorem InPayload.step_token {s : State} {i : Instr} {rest : List Byte} (hs : InPayload s)
    (he : readToken (payloadLeft s) ≠ .exhausted)
    (hd : decode s.cfg.toFormat (.token (payloadLeft s)) = .ok (i, rest)) : step s = exec i s := by
  rw [step_decoded (hs.fetch_token he) hd, accept_of_activity_ne_idle (by simp [hs.activity])]

/-- Behind a whole token the rest of the payload is left. -/
theorem InPayload.tokenEffect {s : State} {token rest output : List Byte} {len : Nat} (hs : InPayload s)
    (hl : payloadLeft s = token ++ rest) (ht : token.length = len) :
    InPayload (tokenEffect output len s) ∧ payloadLeft (tokenEffect output len s) = rest := by
  have hlen := hs.length_left
  rw [hl, List.length_append] at hlen
  refine ⟨⟨hs.activity, hs.host, hs.inside, ?_⟩, ?_⟩
  · have hq := hs.q_le
    rw [tokenEffect_q, tokenEffect_n]
    omega
  · calc payloadLeft (Machine.tokenEffect output len s)
        = (payloadLeft s).drop len := by
          simp [payloadLeft, memRead, List.drop_take, Nat.sub_sub, Nat.add_assoc]
      _ = rest := by rw [hl, List.drop_left' ht]

/-- The line that UNPACK's answer comes to, R88. -/
def lineOf (c : Config) (held : Nat) : Except Nat (List Byte) → LineRead
  | .error q => .malformed q
  | .ok u => checkLine c held u

theorem readLine_eq (c : Config) (held : Nat) (payload : List Byte) :
    readLine c held payload = lineOf c held (unpack payload) := by
  unfold readLine
  cases unpack payload <;> rfl

/-- The tokens left of a payload, one a step, come to what UNPACK makes of them; each takes a byte at least. -/
theorem InPayload.reaches {fuel k : Nat} {s : State} {a : Answer} (hs : InPayload s)
    (hfuel : (payloadLeft s).length ≤ fuel)
    (h : Reaches k (packetEffect s.n (lineOf s.cfg s.out.length (unpackFrom fuel (payloadLeft s) s.q s.u))
      (afterPayload s)) a) :
    Reaches (k + (payloadLeft s).length + 1) (.next s) a := by
  induction fuel generalizing s with
  | zero =>
    have hl : payloadLeft s = [] := List.eq_nil_of_length_eq_zero (Nat.le_zero.mp hfuel)
    simp only [unpackFrom, lineOf] at h
    rw [← hs.step_leave hl] at h
    exact h.of_step.mono (by omega)
  | succ fuel ih =>
    -- A whole token takes one step, and the tokens behind it the rest.
    have token {tok rest output : List Byte} {len : Nat} (hl : payloadLeft s = tok ++ rest) (ht : tok.length = len)
        (hpos : 1 ≤ len) (hstep : step s = .next (Machine.tokenEffect output len s))
        (h' : Reaches k (packetEffect s.n (lineOf s.cfg s.out.length
          (unpackFrom fuel rest (s.q + len) (s.u ++ output))) (afterPayload s)) a) :
        Reaches (k + (payloadLeft s).length + 1) (.next s) a := by
      obtain ⟨hs', hl'⟩ := hs.tokenEffect (output := output) hl ht
      rw [hl, List.length_append] at hfuel ⊢
      have hrest := ih hs' (by rw [hl']; omega) (by rw [hl']; exact h')
      rw [hl', ← hstep] at hrest
      exact hrest.of_step.mono (by omega)
    cases ht : readToken (payloadLeft s) with
    | exhausted =>
      simp only [unpackFrom, ht, lineOf] at h
      rw [← hs.step_leave (readToken_exhausted ht)] at h
      exact h.of_step.mono (by omega)
    | truncated =>
      simp only [unpackFrom, ht, lineOf] at h
      exact (hs.step_tokenTruncated ht ▸ h : Reaches k (step s) a).of_step.mono (by omega)
    | literal data rest =>
      simp only [unpackFrom, ht] at h
      have hstep := hs.step_token (i := .lit data) (rest := rest) (by simp [ht]) (by simp only [decode, ht])
      exact token (readToken_literal ht).1 (emitLit_length data) (by omega) hstep (by rwa [← Nat.add_assoc])
    | run count b rest =>
      simp only [unpackFrom, ht] at h
      have hstep := hs.step_token (i := .rep count b) (rest := rest) (by simp [ht]) (by simp only [decode, ht])
      exact token (readToken_run ht).1 (emitRep_length count b) (by omega) hstep h
    | skip rest =>
      simp only [unpackFrom, ht] at h
      have hstep := hs.step_token (i := .nop) (rest := rest) (by simp [ht]) (by simp only [decode, ht])
      exact token (tok := [0x80#8]) (len := 1) (readToken_skip ht) rfl (by omega) hstep (by rwa [List.append_nil])

end Sys2Proof.Machine

end

/-! ## 00_scope.md: an observed DECODE is the DECODE of one step -/

section

namespace Sys2Proof.Machine

open Sys2Proof

/-- What the end of a walk through a stream makes of the block. -/
def streamAnswer (s : State) : StreamEnd → Answer
  | .done out => .next (endDecode { s with out := Memory.ofBytes out })
  | .error c pos aux => .next (raiseFraming c pos aux s)
  | .overflow => .refused .outputTooLong

theorem exec_decode (s : State) : exec .decode s = streamAnswer s (decodeStream s.cfg s.inp.bytes) := by
  rw [exec, execDecode]
  cases decodeStream s.cfg s.inp.bytes <;> rfl

/-- The end of a DECODE overwrites what an accepted line changed. -/
theorem streamAnswer_acceptLine (line : List Byte) (n : Nat) (s : State) (e : StreamEnd) :
    streamAnswer (acceptLine line n s) e = streamAnswer s e := by
  cases e <;> rfl

/-- The end of a DECODE overwrites what its beginning changed. -/
theorem streamAnswer_startDecode (tokens : Bool) (s : State) (e : StreamEnd) :
    streamAnswer (startDecode tokens s) e = streamAnswer s e := by
  cases e <;> rfl

/-- A DECODE in progress at a packet boundary, with no move of the host to come. -/
structure AtPacket (tokens : Bool) (s : State) : Prop where
  activity : s.activity = .packet tokens
  host : s.host = []
  out_wf : s.out.wf
  u_nil : s.u = []
  q_zero : s.q = 0
  n_zero : s.n = 0

theorem AtPacket.no_reset {tokens : Bool} {s : State} (hs : AtPacket tokens s) : s.host.head? ≠ some .reset := by
  simp [hs.host]

theorem AtPacket.acceptLine {tokens : Bool} {s : State} (hs : AtPacket tokens s) (line : List Byte) (n : Nat) :
    AtPacket tokens (acceptLine line n s) :=
  ⟨hs.activity, hs.host, memAppend_wf _ _, hs.u_nil, hs.q_zero, hs.n_zero⟩

theorem atPacket_startDecode {s : State} (tokens : Bool) (hh : s.host = []) : AtPacket tokens (startDecode tokens s) :=
  ⟨rfl, hh, Memory.wf_nil, rfl, rfl, rfl⟩

/-- The stream left behind an accepted packet is what its reader left. -/
theorem streamLeft_acceptLine {s : State} {payload rest : List Byte} (line : List Byte)
    (hl : streamLeft s = wrapPacket s.cfg.toFormat payload ++ rest) :
    streamLeft (acceptLine line payload.length s) = rest := by
  calc streamLeft (acceptLine line payload.length s)
      = (streamLeft s).drop (s.cfg.headerLen + payload.length) := by
        simp [streamLeft, Nat.add_assoc]
    _ = rest := by rw [hl]; exact List.drop_left' (wrapPacket_length _ _)

/-- Entering the payload of a whole packet. -/
theorem inPayload_enter {s : State} {payload rest : List Byte} (hh : s.host = [])
    (hl : streamLeft s = wrapPacket s.cfg.toFormat payload ++ rest) :
    InPayload { s with u := [], q := 0, n := payload.length, activity := .payload } ∧
    payloadLeft { s with u := [], q := 0, n := payload.length, activity := .payload } = payload := by
  have hlen := congrArg List.length hl
  rw [streamLeft, List.length_drop, Memory.length_bytes, List.length_append, wrapPacket_length] at hlen
  refine ⟨⟨rfl, hh, ?_, Nat.zero_le _⟩, ?_⟩
  · have hhead : s.cfg.headerLen = 1 + s.cfg.lenBytes := rfl
    show s.pos + s.cfg.headerLen + payload.length ≤ s.inp.length
    omega
  · calc _ = ((streamLeft s).drop s.cfg.headerLen).take payload.length := by
          simp [payloadLeft, memRead, streamLeft]
      _ = payload := by
        rw [hl, wrapPacket, Format.headerLen, Nat.add_comm 1, List.cons_append, List.drop_succ_cons, List.append_assoc,
          List.drop_left' (leBytes_length _ _), List.take_left' rfl]

/-- Leaving a payload leads back to the packet's boundary. -/
theorem AtPacket.afterPayload_enter {s : State} (hs : AtPacket true s) (n : Nat) :
    afterPayload { s with u := [], q := 0, n := n, activity := .payload } = s := by
  obtain ⟨ha, -, -, hu, hq, hn⟩ := hs
  cases s
  simp only at ha hu hq hn
  subst ha hu hq hn
  rfl

/-- A whole packet comes to what XFER does with its payload, in one step or token by token. -/
theorem AtPacket.reaches_packet {tokens : Bool} {s : State} {payload rest : List Byte} {r : LineRead} {k : Nat}
    {a : Answer} (hs : AtPacket tokens s) (hp : readPacket s.cfg.toFormat (streamLeft s) = .packet payload rest)
    (hr : readLine s.cfg s.out.length payload = r) (h : Reaches k (packetEffect payload.length r s) a) :
    Reaches (k + payload.length + 2) (.next s) a := by
  subst hr
  cases tokens with
  | false =>
    rw [← step_xfer hs.no_reset hs.activity hp] at h
    exact h.of_step.mono (by omega)
  | true =>
    obtain ⟨hin, hleft⟩ := inPayload_enter hs.host (readPacket_packet hp).1
    have htokens := hin.reaches (fuel := payload.length) (k := k) (a := a) (by rw [hleft])
      (by rwa [hleft, hs.afterPayload_enter, ← unpack, ← readLine_eq])
    rw [hleft, ← step_enterPayload hs.no_reset hs.activity hp] at htokens
    exact htokens.of_step

/-- A step that raises an error of DECODE is the last one. -/
theorem AtPacket.reaches_error {tokens : Bool} {s : State} {c : Cause} {pos aux : Nat} (hs : AtPacket tokens s)
    (h : step s = .next (raiseFraming c pos aux s)) : Reaches 1 (.next s) (streamAnswer s (.error c pos aux)) :=
  (h ▸ reaches_waiting rfl hs.host : Reaches 0 (step s) _).of_step

/-- The end of the stream is the end of the walk. -/
theorem AtPacket.reaches_done {tokens : Bool} {s : State} (hs : AtPacket tokens s) (hl : streamLeft s = []) :
    Reaches 1 (.next s) (streamAnswer s (.done s.out.bytes)) := by
  have hend : Reaches 0 (.next (endDecode s)) (.next (endDecode s)) := reaches_waiting rfl hs.host
  rw [streamAnswer, Memory.ofBytes_bytes hs.out_wf]
  exact (step_endDecode hs.no_reset hs.activity hl ▸ hend : Reaches 0 (step s) _).of_step

/-- The walk through the stream left comes to what the one-step walk answers. A packet of `n` bytes' payload is observed
in at most `n + 2` steps, and its header has two bytes at least. -/
theorem AtPacket.reaches {tokens : Bool} {fuel : Nat} {s : State} (hs : AtPacket tokens s)
    (hlen : 1 ≤ s.cfg.lenBytes) (hfuel : (streamLeft s).length ≤ fuel) :
    Reaches ((streamLeft s).length + 1) (.next s)
      (streamAnswer s (decodeFrom s.cfg fuel (streamLeft s) s.pos s.out.bytes)) := by
  induction fuel generalizing s with
  | zero =>
    exact (hs.reaches_done (List.eq_nil_of_length_eq_zero (Nat.le_zero.mp hfuel))).mono (by omega)
  | succ fuel ih =>
    cases hp : readPacket s.cfg.toFormat (streamLeft s) with
    | exhausted =>
      simp only [decodeFrom, hp]
      exact (hs.reaches_done (readPacket_exhausted hp)).mono (by omega)
    | illegal b =>
      simp only [decodeFrom, hp]
      exact (hs.reaches_error (step_illegal hs.no_reset hs.activity hp)).mono (by omega)
    | truncated left =>
      simp only [decodeFrom, hp]
      exact (hs.reaches_error (step_headerTruncated hs.no_reset hs.activity hp)).mono (by omega)
    | overrun n =>
      simp only [decodeFrom, hp]
      exact (hs.reaches_error (step_lengthOverrun hs.no_reset hs.activity hp)).mono (by omega)
    | packet payload rest =>
      have hl := (readPacket_packet hp).1
      have hsize : (streamLeft s).length = 1 + s.cfg.lenBytes + payload.length + rest.length := by
        rw [hl, List.length_append, wrapPacket_length]
      simp only [decodeFrom, hp, Memory.length_bytes]
      cases hr : readLine s.cfg s.out.length payload with
      | malformed q =>
        have hend := hs.reaches_packet hp hr (reaches_waiting rfl hs.host)
        exact hend.mono (by omega)
      | wrongLength len =>
        have hend := hs.reaches_packet hp hr (reaches_waiting rfl hs.host)
        exact hend.mono (by omega)
      | overflow =>
        have hend := hs.reaches_packet hp hr (reaches_refused .outputTooLong)
        exact hend.mono (by omega)
      | line u =>
        have hleft : streamLeft (Machine.acceptLine u payload.length s) = rest := streamLeft_acceptLine u hl
        have hrest := ih (hs.acceptLine u payload.length) hlen (by rw [hleft]; omega)
        rw [hleft, streamAnswer_acceptLine, acceptLine_out, memAppend_bytes] at hrest
        exact (hs.reaches_packet hp hr hrest).mono (by omega)

/-- The move `trace` starts a DECODE that is observed (log 1). -/
theorem step_trace {s : State} (tokens : Bool) (ha : s.activity = .idle) :
    step { s with host := [.trace tokens] } = .next (startDecode tokens { s with host := [], started := true }) := by
  have hf : fetch { s with host := [.trace tokens] } = none := by simp [fetch, ha]
  rw [step_between hf]
  simp only [betweenInstructions, ha]
  rfl

/-- Settles O10: a walk through the stream by steps, from the state the move `trace` leaves. -/
theorem observedDecodeIsTheOperation : Obligations.ObservedDecodeIsTheOperation := by
  intro s tokens ha hlen
  have hs : AtPacket tokens (startDecode tokens { s with host := [], started := true }) := atPacket_startDecode tokens rfl
  have hwalk := hs.reaches (fuel := s.inp.bytes.length) hlen Nat.le.refl
  rw [streamAnswer_startDecode] at hwalk
  rw [run_succ, step_trace tokens ha, exec_decode]
  exact hwalk _ (by simp [streamLeft])

end Sys2Proof.Machine

end

/-! ## 10_state.md: what each of the four operations leaves unchanged -/

section

namespace Sys2Proof.Machine

open Sys2Proof

/-- Settles O46: each way an operation can go on is a named end of it, whose fields the model's laws give. -/
theorem operationFrame : Obligations.OperationFrame := by
  intro i s t h hi
  obtain rfl | rfl | rfl | ⟨e1, e2, rfl⟩ | ⟨b, rfl⟩ := hi
  · obtain ⟨-, rfl⟩ | ⟨-, -, rfl⟩ := execEncode_next h <;> simp
  · obtain ⟨out, -, rfl⟩ | ⟨c, pos, aux, -, rfl⟩ := execDecode_next h <;> simp
  · obtain ⟨-, he⟩ | ⟨-, he⟩ := execParse_cases s <;> obtain rfl := next_injective (he.symm.trans h) <;> simp
  · obtain rfl := next_injective h
    simp
  · obtain rfl := next_injective h
    simp

end Sys2Proof.Machine

end

/-! ## 10_state.md: an operation's results depend on its input alone -/

section

namespace Sys2Proof.Machine

open Sys2Proof

/-- Two answers of the operation `i` deliver the same: the same outputs and results, or the same refusal (R21). -/
inductive SameDelivery (i : Instr) : Answer → Answer → Prop where
  | next {t t' : State} (out : t'.out = t.out) (result : t'.result = t.result) (sf : i = .parse → t'.sf = t.sf)
      (cls : (∃ e1 e2, i = .classify e1 e2) → t'.cls = t.cls) : SameDelivery i (.next t) (.next t')
  | refused (r : Refusal) : SameDelivery i (.refused r) (.refused r)

theorem exec_encode_sameDelivery {s s' : State} (hc : s'.cfg = s.cfg) (hi : s'.inp = s.inp) :
    SameDelivery .encode (exec .encode s) (exec .encode s') := by
  simp only [exec, execEncode, hc, hi]
  split
  · exact .next rfl rfl nofun nofun
  · split
    · exact .refused _
    · exact .next rfl rfl nofun nofun

theorem exec_decode_sameDelivery {s s' : State} (hc : s'.cfg = s.cfg) (hi : s'.inp = s.inp) :
    SameDelivery .decode (exec .decode s) (exec .decode s') := by
  rw [exec_decode, exec_decode, hc, hi]
  cases decodeStream s.cfg s.inp.bytes with
  | done out => exact .next rfl rfl nofun nofun
  | error c pos aux => exact .next rfl rfl nofun nofun
  | overflow => exact .refused _

theorem exec_parse_sameDelivery {s s' : State} (hc : s'.cfg = s.cfg) (hi : s'.inp = s.inp) :
    SameDelivery .parse (exec .parse s) (exec .parse s') := by
  simp only [exec, execParse, hc, hi]
  split
  · exact .next rfl rfl (fun _ => rfl) nofun
  · exact .next rfl rfl (fun _ => rfl) nofun

theorem exec_classify_sameDelivery {s s' : State} (e1 e2 : Byte) (hc : s'.cfg = s.cfg) :
    SameDelivery (.classify e1 e2) (exec (.classify e1 e2) s) (exec (.classify e1 e2) s') := by
  simp only [exec, execClassify, hc]
  exact .next rfl rfl nofun (fun _ => rfl)

/-- Settles O16: the two answers are compared operation by operation, along the branches that the operation takes on
`IN` and the configuration. -/
theorem operationsDependOnTheInputAlone : Obligations.OperationsDependOnTheInputAlone := by
  intro i s s' hop hc hi
  have hsame : SameDelivery i (exec i s) (exec i s') := by
    obtain rfl | rfl | rfl | ⟨e1, e2, rfl⟩ := hop
    · exact exec_encode_sameDelivery hc hi
    · exact exec_decode_sameDelivery hc hi
    · exact exec_parse_sameDelivery hc hi
    · exact exec_classify_sameDelivery e1 e2 hc
  constructor
  · intro t ht
    rw [ht] at hsame
    generalize exec i s' = a' at hsame
    cases hsame with
    | next out result sf cls => exact ⟨_, rfl, out, result, sf, cls⟩
  · intro r hr
    rw [hr] at hsame
    generalize exec i s' = a' at hsame
    cases hsame with
    | refused r => rfl

end Sys2Proof.Machine

end

/-! ## 10_state.md: everything a step can do -/

section

namespace Sys2Proof.Machine

open Sys2Proof

/-! ### An idle block -/

/-- R14: an idle block takes the operation word at the head of the host's list. -/
theorem fetch_present {s : State} {w : OpWord} {rest : List Move} (ha : s.activity = .idle)
    (hh : s.host = .present w :: rest) : fetch s = some (.op w) := by
  simp [fetch, ha, hh]

theorem accept_present {s : State} {w : OpWord} {rest : List Move} (ha : s.activity = .idle)
    (hh : s.host = .present w :: rest) : accept s = { s with host := rest, started := true } := by
  simp only [accept, ha, hh]

/-- R125: an idle block takes the wire command at the head of the host's list. -/
theorem fetch_command {s : State} {bs : List Byte} {rest : List Move} (ha : s.activity = .idle)
    (hh : s.host = .command bs :: rest) : fetch s = some (.command bs) := by
  simp [fetch, ha, hh]

theorem accept_command {s : State} {bs : List Byte} {rest : List Move} (ha : s.activity = .idle)
    (hh : s.host = .command bs :: rest) : accept s = { s with host := rest } := by
  simp only [accept, ha, hh]

/-- R14: the operation that was presented is run, and the configuration is fixed from then on. -/
theorem step_present {s : State} {w : OpWord} {rest : List Move} (ha : s.activity = .idle)
    (hh : s.host = .present w :: rest) : step s = exec (decodeOp w) { s with host := rest, started := true } := by
  rw [step_decoded (fetch_present ha hh) rfl, accept_present ha hh]

/-- R171: a reset comes before everything. -/
theorem step_reset {s : State} {rest : List Move} (hh : s.host = .reset :: rest) :
    step s = .next (resetBlock { s with host := rest }) := by
  have hf : fetch s = none := by simp [fetch, hh]
  rw [step_between hf]
  simp only [betweenInstructions, hh]

/-- An idle block takes a move of the host that brings no instruction. -/
theorem step_hostMove {s : State} {m : Move} {rest : List Move} (ha : s.activity = .idle) (hh : s.host = m :: rest)
    (hreset : m ≠ .reset) (hpresent : ∀ w, m ≠ .present w) (hcommand : ∀ bs, m ≠ .command bs) :
    step s = hostMove m { s with host := rest } := by
  have hf : fetch s = none := by
    unfold fetch
    rw [hh, List.head?_cons, if_neg (by simpa using hreset), ha]
    dsimp only
    split
    · rename_i w _ hm
      exact absurd (List.cons.inj hm).1 (hpresent w)
    · rename_i bs _ hm
      exact absurd (List.cons.inj hm).1 (hcommand bs)
    · rfl
  rw [step_between hf]
  unfold betweenInstructions
  split <;> simp_all

/-- R125: what the bytes of a command decode to is one of the ten. -/
theorem decodeCommand_ok {bs : List Byte} {i : Instr} (h : decodeCommand bs = .ok i) :
    ∃ st, commandStep i = some st := by
  revert h
  fun_cases decodeCommand bs
  all_goals rintro ⟨⟩
  all_goals exact ⟨_, rfl⟩

/-- R125: bytes that are no command are refused. -/
theorem decodeCommand_error {bs : List Byte} {e : DecodeError} (h : decodeCommand bs = .error e) (code : Code)
    (s : State) : ∃ r, decodeFailure code e s = .refused r := by
  revert h
  fun_cases decodeCommand bs
  all_goals rintro ⟨⟩
  all_goals exact ⟨_, rfl⟩

/-- A wire command that goes on is one of the ten, run with the move off the list. -/
theorem step_command {s t : State} {bs : List Byte} {rest : List Move} (ha : s.activity = .idle)
    (hh : s.host = .command bs :: rest) (h : step s = .next t) :
    ∃ i st, decodeCommand bs = .ok i ∧ commandStep i = some st ∧ exec i { s with host := rest } = .next t := by
  have hf := fetch_command ha hh
  cases hd : decodeCommand bs with
  | ok i =>
    have hd' : decode s.cfg.toFormat (.command bs) = .ok (i, []) := by simp only [decode, hd]
    rw [step_decoded hf hd', accept_command ha hh] at h
    obtain ⟨st, hc⟩ := decodeCommand_ok hd
    exact ⟨i, st, rfl, hc, h⟩
  | error e =>
    have hd' : decode s.cfg.toFormat (.command bs) = .error e := by simp only [decode, hd]
    obtain ⟨r, hr⟩ := decodeCommand_error hd (.command bs) (accept s)
    rw [step_undecoded hf hd', hr] at h
    cases h

/-! ### A DECODE that is observed -/

/-- What a step of an observed DECODE does when it goes on. -/
inductive StreamStep (s : State) : State → Prop where
  /-- R86, R87, R89: the stream or the payload is malformed at the cursor -/
  | malformed {c : Cause} {aux : Nat} (active : s.activity ≠ .idle) (cause : c ≠ .ok) :
      StreamStep s (raiseFraming c s.pos aux s)
  /-- R85: the stream is at its end -/
  | done {tokens : Bool} (boundary : s.activity = .packet tokens) (atEnd : streamLeft s = []) :
      StreamStep s (endDecode s)
  /-- R85, R88: a whole packet is run -/
  | packet {tokens : Bool} {payload rest : List Byte} {t : State} (boundary : s.activity = .packet tokens)
      (read : readPacket s.cfg.toFormat (streamLeft s) = .packet payload rest)
      (go : packetEffect payload.length (readLine s.cfg s.out.length payload) s = .next t) : StreamStep s t
  /-- R85: the payload of a whole packet is entered -/
  | enter {payload rest : List Byte} (boundary : s.activity = .packet true)
      (read : readPacket s.cfg.toFormat (streamLeft s) = .packet payload rest) :
      StreamStep s { s with u := [], q := 0, n := payload.length, activity := .payload }
  /-- R89: a whole token is run -/
  | token {output : List Byte} {len : Nat} (inside : s.activity = .payload) (whole : len ≤ (payloadLeft s).length) :
      StreamStep s (tokenEffect output len s)
  /-- R88: every token of the payload is done -/
  | leave {t : State} (inside : s.activity = .payload)
      (go : packetEffect s.n (checkLine s.cfg s.out.length s.u) (afterPayload s) = .next t) : StreamStep s t

theorem streamStep_packet {s t : State} {tokens : Bool} (hr : s.host.head? ≠ some .reset)
    (ha : s.activity = .packet tokens) (h : step s = .next t) : StreamStep s t := by
  cases hp : readPacket s.cfg.toFormat (streamLeft s) with
  | exhausted =>
    have hl := readPacket_exhausted hp
    rw [step_endDecode hr ha hl] at h
    exact next_injective h ▸ .done ha hl
  | illegal b =>
    rw [step_illegal hr ha hp] at h
    exact next_injective h ▸ .malformed (by simp [ha]) nofun
  | truncated left =>
    rw [step_headerTruncated hr ha hp] at h
    exact next_injective h ▸ .malformed (by simp [ha]) nofun
  | overrun n =>
    rw [step_lengthOverrun hr ha hp] at h
    exact next_injective h ▸ .malformed (by simp [ha]) nofun
  | packet payload rest =>
    cases tokens with
    | false =>
      rw [step_xfer hr ha hp] at h
      exact .packet ha hp h
    | true =>
      rw [step_enterPayload hr ha hp] at h
      exact next_injective h ▸ .enter ha hp

theorem streamStep_payload {s t : State} (hr : s.host.head? ≠ some .reset) (ha : s.activity = .payload)
    (h : step s = .next t) : StreamStep s t := by
  have haccept : accept s = s := accept_of_activity_ne_idle (by simp [ha])
  by_cases hq : s.q < s.n
  · have hf : fetch s = some (.token (payloadLeft s)) := by rw [fetch_payload hr ha, if_pos hq]
    cases ht : readToken (payloadLeft s) with
    | exhausted =>
      have hd : decode s.cfg.toFormat (.token (payloadLeft s)) = .error .exhausted := by simp only [decode, ht]
      rw [step_undecoded hf hd] at h
      cases h
    | truncated =>
      have hd : decode s.cfg.toFormat (.token (payloadLeft s)) = .error .tokenTruncated := by simp only [decode, ht]
      rw [step_undecoded hf hd, haccept] at h
      exact next_injective h ▸ .malformed (by simp [ha]) nofun
    | literal data rest =>
      have hd : decode s.cfg.toFormat (.token (payloadLeft s)) = .ok (.lit data, rest) := by simp only [decode, ht]
      rw [step_decoded hf hd, haccept] at h
      exact next_injective h ▸ .token ha (by simp [(readToken_literal ht).1, emitLit_length])
    | run count b rest =>
      have hd : decode s.cfg.toFormat (.token (payloadLeft s)) = .ok (.rep count b, rest) := by simp only [decode, ht]
      rw [step_decoded hf hd, haccept] at h
      exact next_injective h ▸ .token ha (by simp [(readToken_run ht).1, emitRep_length])
    | skip rest =>
      have hd : decode s.cfg.toFormat (.token (payloadLeft s)) = .ok (.nop, rest) := by simp only [decode, ht]
      rw [step_decoded hf hd, haccept] at h
      exact next_injective h ▸ .token ha (by simp [readToken_skip ht])
  · have hf : fetch s = none := by rw [fetch_payload hr ha, if_neg hq]
    rw [step_between hf, betweenInstructions_payload hr ha] at h
    exact .leave ha h

/-! ### The step -/

/-- Everything a step that goes on can do. -/
inductive Stepped (s : State) : State → Prop where
  /-- R171 -/
  | reset {rest : List Move} (host : s.host = .reset :: rest) : Stepped s (resetBlock { s with host := rest })
  /-- R22: an idle block without a move -/
  | wait (idle : s.activity = .idle) (host : s.host = []) : Stepped s s
  /-- a move of the host that is no instruction -/
  | move {m : Move} {rest : List Move} {t : State} (idle : s.activity = .idle) (host : s.host = m :: rest)
      (notReset : m ≠ .reset) (go : hostMove m { s with host := rest } = .next t) : Stepped s t
  /-- R14 -/
  | operation {w : OpWord} {rest : List Move} {t : State} (idle : s.activity = .idle)
      (fetched : fetch s = some (.op w))
      (go : exec (decodeOp w) { s with host := rest, started := true } = .next t) : Stepped s t
  /-- R125 -/
  | command {bs : List Byte} {i : Instr} {st : JobStep} {rest : List Move} {t : State} (idle : s.activity = .idle)
      (fetched : fetch s = some (.command bs)) (decoded : decodeCommand bs = .ok i)
      (isCommand : commandStep i = some st) (go : exec i { s with host := rest } = .next t) : Stepped s t
  /-- R85: a DECODE in progress -/
  | stream {t : State} (go : StreamStep s t) : Stepped s t

theorem stepped_of_idle {s t : State} (ha : s.activity = .idle) (h : step s = .next t) : Stepped s t := by
  cases hh : s.host with
  | nil =>
    rw [step_waiting ha hh] at h
    exact next_injective h ▸ .wait ha hh
  | cons m rest =>
    cases m
    case reset =>
      rw [step_reset hh] at h
      exact next_injective h ▸ .reset hh
    case present w =>
      rw [step_present ha hh] at h
      exact .operation ha (fetch_present ha hh) h
    case command bs =>
      obtain ⟨i, st, hd, hc, hgo⟩ := step_command ha hh h
      exact .command ha (fetch_command ha hh) hd hc hgo
    all_goals
      rw [step_hostMove ha hh nofun nofun nofun] at h
      exact .move ha hh nofun h

theorem stepped_of_step {s t : State} (h : step s = .next t) : Stepped s t := by
  by_cases hr : s.host.head? = some .reset
  · obtain ⟨rest, hh⟩ := List.head?_eq_some_iff.mp hr
    rw [step_reset hh] at h
    exact next_injective h ▸ .reset hh
  · cases ha : s.activity with
    | idle => exact stepped_of_idle ha h
    | packet tokens => exact .stream (streamStep_packet hr ha h)
    | payload => exact .stream (streamStep_payload hr ha h)

/-- Settles O8: what `fetch` and `accept` are, case by case of the activity. -/
theorem stepRunsTheDecodedInstruction : Obligations.StepRunsTheDecodedInstruction := by
  refine ⟨fun _ _ _ _ hf hd => step_decoded hf hd, fun _ _ _ ha hh => ⟨fetch_present ha hh, accept_present ha hh⟩,
    fun _ _ _ ha hh => ⟨fetch_command ha hh, accept_command ha hh⟩, fun s ha hr hpos => ⟨?_, ?_⟩,
    fun s ha hr hq => ⟨?_, ?_⟩⟩
  · rw [fetch_packet hr ha, if_pos ⟨hpos, by simp⟩, streamLeft]
  · exact accept_of_activity_ne_idle (by simp [ha])
  · rw [fetch_payload hr ha, if_pos hq, payloadLeft, memRead]
  · exact accept_of_activity_ne_idle (by simp [ha])

/-- Settles O12: a read is a move of an idle block. -/
theorem readingAnEmptyResultFaults : Obligations.ReadingAnEmptyResultFaults := fun _ _ ha =>
  ⟨fun hh => step_hostMove ha hh nofun nofun nofun, fun hh => step_hostMove ha hh nofun nofun nofun⟩

end Sys2Proof.Machine

end

/-! ## 10_state.md: who writes the configuration, `SF` and `CLASS` -/

section

namespace Sys2Proof.Machine

open Sys2Proof

/-- The registers that have one writer each (R16, R18, R19) are the same in both states. -/
structure SameResults (s t : State) : Prop where
  cfg : t.cfg = s.cfg
  sf : t.sf = s.sf
  cls : t.cls = s.cls

theorem SameBlock.sameResults {s t : State} {inp : Memory} (h : SameBlock { s with inp := inp } t) :
    SameResults s t :=
  ⟨h.cfg, h.sf, h.cls⟩

/-- An error or an accepted line of a packet leaves them alone. -/
theorem packetEffect_sameResults {n : Nat} {r : LineRead} {s t : State} (h : packetEffect n r s = .next t) :
    SameResults s t := by
  obtain ⟨q, -, rfl⟩ | ⟨len, -, rfl⟩ | ⟨u, -, rfl⟩ := packetEffect_next h
  · exact ⟨rfl, rfl, rfl⟩
  · exact ⟨rfl, rfl, rfl⟩
  · exact ⟨rfl, rfl, rfl⟩

theorem StreamStep.sameResults {s t : State} (h : StreamStep s t) : SameResults s t := by
  cases h with
  | malformed active cause => exact ⟨rfl, rfl, rfl⟩
  | done boundary atEnd => exact ⟨rfl, rfl, rfl⟩
  | packet boundary read go => exact packetEffect_sameResults go
  | enter boundary read => exact ⟨rfl, rfl, rfl⟩
  | token inside whole => exact ⟨rfl, rfl, rfl⟩
  | leave inside go =>
    obtain ⟨cfg, sf, cls⟩ := packetEffect_sameResults go
    exact ⟨cfg, sf, cls⟩

/-- When `loadInput` goes on: the bytes fit. -/
theorem loadInput_next {bs : List Byte} {s t : State} (h : loadInput bs s = .next t) :
    bs.length ≤ s.cfg.maxBytes ∧ t = { s with inp := Memory.ofBytes bs } := by
  unfold loadInput at h
  split at h
  · cases h
  · exact ⟨by omega, (next_injective h).symm⟩

/-- When `setConfiguration` goes on (R172, D18). -/
theorem setConfiguration_next {c : Settings} {s t : State} (h : setConfiguration c s = .next t) :
    s.started = false ∧ ({ s.cfg with toSettings := c } : Config).wf = true ∧
    s.inp.length ≤ c.maxBytes ∧ s.out.length ≤ c.maxBytes ∧
    t = { s with cfg := { s.cfg with toSettings := c }, line := freeLine c.L s.fresh, fresh := s.fresh + 1 } := by
  unfold setConfiguration at h
  split_ifs at h with hstarted hwf hroom
  exact ⟨Bool.eq_false_iff.mpr hstarted, hwf, by omega, by omega, (next_injective h).symm⟩

/-- When the read of the final status goes on: the job is over, or a reply or an I/O error was received. -/
theorem readFinalStatus_next {s t : State} (h : readFinalStatus s = .next t) :
    t = s ∨ jobOver s.job = false ∧
      keepReply keepFinal (receiveReply { s with job := advance .readStatus s.job }) = .next t := by
  unfold readFinalStatus at h
  split at h
  · exact .inl (next_injective h).symm
  · rename_i ho
    exact .inr ⟨Bool.eq_false_iff.mpr ho, h⟩

theorem readFinalStatus_sameResults {s t : State} (h : readFinalStatus s = .next t) : SameResults s t := by
  obtain rfl | ⟨-, hk⟩ := readFinalStatus_next h
  · exact ⟨rfl, rfl, rfl⟩
  · obtain ⟨v, hv, ⟨-, rfl⟩ | ⟨-, rfl⟩⟩ := keepReply_next hk
    · obtain ⟨cfg, sf, cls⟩ := (receiveReply_leaves hv).block.sameResults
      exact ⟨cfg, sf, cls⟩
    · obtain ⟨cfg, sf, cls⟩ := (receiveReply_leaves hv).block.sameResults
      exact ⟨cfg, sf, cls⟩

theorem transferStream_sameResults (s : State) : SameResults s (transferStream s) := by
  unfold transferStream
  split
  · exact ⟨rfl, rfl, rfl⟩
  · obtain ⟨cfg, -, -, -, -, -, -, -, -, -, sf, cls, -, -⟩ := sendBytes_sameBlock .transfer s.out.bytes
      { s with job := { s.job with miscounted := s.job.miscounted || !countAgrees s } }
    exact ⟨cfg, sf, cls⟩

theorem openTransport_sameResults (name : String) (ch : Channel) (s : State) :
    SameResults s (openTransport name ch s) := by
  obtain ⟨-, h⟩ | ⟨-, -, h⟩ | ⟨-, e, -, h⟩ := openTransport_cases name ch s <;> rw [h]
  · exact ⟨rfl, rfl, rfl⟩
  · exact ⟨rfl, rfl, rfl⟩
  · exact ⟨rfl, rfl, rfl⟩

/-- Of the host's moves only a reset and the setting of a configuration write one of them. -/
theorem hostMove_sameResults {m : Move} {s t : State} (hm : m ≠ .reset) (h : hostMove m s = .next t) :
    SameResults s t ∨ ∃ c, m = .configure c ∧ setConfiguration c s = .next t := by
  cases m
  case configure c => exact .inr ⟨c, rfl, h⟩
  case reset => exact absurd rfl hm
  all_goals left
  case load bs => obtain ⟨-, rfl⟩ := loadInput_next h; exact ⟨rfl, rfl, rfl⟩
  case copyOut => obtain ⟨-, rfl⟩ := loadInput_next h; exact ⟨rfl, rfl, rfl⟩
  case transfer => exact next_injective h ▸ transferStream_sameResults s
  case readStatus => exact readFinalStatus_sameResults h
  case openTransport name ch => exact next_injective h ▸ openTransport_sameResults name ch s
  case readSf =>
    simp only [hostMove] at h
    split_ifs at h
    exact next_injective h ▸ ⟨rfl, rfl, rfl⟩
  case readClass =>
    simp only [hostMove] at h
    split_ifs at h
    exact next_injective h ▸ ⟨rfl, rfl, rfl⟩
  all_goals exact next_injective h ▸ ⟨rfl, rfl, rfl⟩

/-- Of the operations only PARSE writes `SF` and only CLASSIFY writes `CLASS`. -/
theorem exec_decodeOp_results {w : OpWord} {s t : State} (h : exec (decodeOp w) s = .next t) :
    t.cfg = s.cfg ∧ (decodeOp w ≠ .parse → t.sf = s.sf) ∧
    ((∀ e1 e2, decodeOp w ≠ .classify e1 e2) → t.cls = s.cls) := by
  have hop : decodeOp w = .encode ∨ decodeOp w = .decode ∨ decodeOp w = .parse ∨
      (∃ e1 e2, decodeOp w = .classify e1 e2) ∨ ∃ b, decodeOp w = .illegalStreamOpcode b := by
    obtain h | h | h | h := decodeOp_cases w <;> simp [h]
  obtain ⟨hcfg, -, -, -, -, -, hsf, hcls, -⟩ := operationFrame _ _ _ h hop
  exact ⟨hcfg, hsf, hcls⟩

/-- A wire command leaves them alone. -/
theorem exec_command_sameResults {i : Instr} {st : JobStep} {s t : State} (hc : commandStep i = some st)
    (h : exec i s = .next t) : SameResults s t :=
  (commandFrame i st s t hc h).1.sameResults

/-- Settles O13: of everything a step can do, only a reset and the move `configure` write the configuration. -/
theorem configurationIsFixed : Obligations.ConfigurationIsFixed := by
  intro s t h
  cases stepped_of_step h with
  | reset host => exact .inr (.inr ⟨_, host⟩)
  | wait idle host => exact .inl rfl
  | move idle host notReset go =>
    obtain hsame | ⟨c, rfl, hset⟩ := hostMove_sameResults notReset go
    · exact .inl hsame.cfg
    · obtain ⟨hstarted, hwf, -, -, rfl⟩ := setConfiguration_next hset
      exact .inr (.inl ⟨c, _, host, idle, hstarted, rfl, hwf⟩)
  | operation idle fetched go => exact .inl (exec_decodeOp_results go).1
  | command idle fetched decoded isCommand go => exact .inl (exec_command_sameResults isCommand go).cfg
  | stream go => exact .inl go.sameResults.cfg

/-- Settles O14: of everything a step can do, only a reset and the one operation write each register. -/
theorem resultsHaveOneWriter : Obligations.ResultsHaveOneWriter := by
  intro s t h
  cases stepped_of_step h with
  | reset host => exact ⟨.inr (.inr ⟨_, host⟩), .inr (.inr ⟨_, host⟩)⟩
  | wait idle host => exact ⟨.inl rfl, .inl rfl⟩
  | move idle host notReset go =>
    obtain hsame | ⟨c, rfl, hset⟩ := hostMove_sameResults notReset go
    · exact ⟨.inl hsame.sf, .inl hsame.cls⟩
    · obtain ⟨-, -, -, -, rfl⟩ := setConfiguration_next hset
      exact ⟨.inl rfl, .inl rfl⟩
  | @operation w _ _ idle fetched go =>
    obtain ⟨-, hsf, hcls⟩ := exec_decodeOp_results go
    constructor
    · by_cases hp : decodeOp w = .parse
      · exact .inr (.inl ⟨_, fetched, hp⟩)
      · exact .inl (hsf hp)
    · by_cases hk : ∃ e1 e2, decodeOp w = .classify e1 e2
      · obtain ⟨e1, e2, hk⟩ := hk
        exact .inr (.inl ⟨_, e1, e2, fetched, hk⟩)
      · exact .inl (hcls fun e1 e2 he => hk ⟨e1, e2, he⟩)
  | command idle fetched decoded isCommand go =>
    have hsame := exec_command_sameResults isCommand go
    exact ⟨.inl hsame.sf, .inl hsame.cls⟩
  | stream go => exact ⟨.inl go.sameResults.sf, .inl go.sameResults.cls⟩

end Sys2Proof.Machine

end

/-! ## 10_state.md: reset -/

section

namespace Sys2Proof.Machine

open Sys2Proof

/-- Settles O1: the values of `State.reset`, and an idle block without a move waits. -/
theorem resetLeavesAnIdleBlock : Obligations.ResetLeavesAnIdleBlock :=
  ⟨rfl, rfl, rfl, rfl, rfl, step_waiting rfl rfl, rfl⟩

theorem job_atIdle_good : Job.atIdle.Good := ⟨by decide, fun _ => rfl, by decide⟩

/-- A block after reset is good whatever the host's side is; the job has to be. -/
theorem resetBlock_good {s : State} (hj : s.job.Good) : (resetBlock s).Good where
  cfg_wf := by rw [resetBlock_cfg]; decide
  inp_wf := Memory.wf_nil
  out_wf := Memory.wf_nil
  inp_le := Nat.zero_le _
  out_le := Nat.zero_le _
  line_len := rfl
  pos_le := absurd rfl
  out_lines := absurd rfl
  in_payload := nofun
  no_payload := fun _ => ⟨rfl, rfl, rfl⟩
  result_ok := fun _ => ⟨rfl, rfl⟩
  sf_ok := nofun
  cls_ok := nofun
  not_started := fun _ => ⟨rfl, rfl, rfl, rfl⟩
  job_good := hj

/-- Settles O2: reset is what a reset of itself leaves. -/
theorem resetIsGood : Obligations.ResetIsGood := resetBlock_good (s := State.reset) job_atIdle_good

end Sys2Proof.Machine

end

/-! ## 10_state.md: the invariant of the print job -/

section

namespace Sys2Proof.Machine

open Sys2Proof

/-- The order of R138 leads to no failure. -/
theorem stageAt_ne_failed (n : Nat) : stageAt n ≠ .failed := by
  cases n with
  | zero => decide
  | succ n =>
    have hall : ∀ x ∈ jobOrder, x.2 ≠ .failed := by decide
    simp only [stageAt]
    cases h : jobOrder[n]? with
    | none => decide
    | some x => exact hall x (List.mem_of_getElem? h)

/-- Only one of the fifteen steps of R138 can be the next. -/
theorem cursor_lt_of_expectedStep {cursor : Nat} {step : JobStep} (h : expectedStep cursor = some step) :
    cursor < 15 := by
  obtain ⟨x, hx, -⟩ := Option.map_eq_some_iff.mp h
  exact (List.getElem?_eq_some_iff.mp hx).1

/-- A job that goes on has no failure. -/
theorem Job.Good.of_failure_eq_none {j : Job} (hcursor : j.cursor ≤ 15) (hstage : j.stage = stageAt j.cursor)
    (hfailure : j.failure = none) : j.Good :=
  ⟨hcursor, fun _ => hstage, iff_of_true hfailure (hstage ▸ stageAt_ne_failed j.cursor)⟩

theorem advance_good {j : Job} (step : JobStep) (h : j.Good) (ho : jobOver j = false) : (advance step j).Good := by
  have hgo := stage_ne_failed ho
  have hfailure : j.failure = none := h.failure_iff.mpr hgo
  unfold advance
  split
  · rename_i he
    exact .of_failure_eq_none (cursor_lt_of_expectedStep he) rfl hfailure
  · exact .of_failure_eq_none h.cursor_le (h.stage_eq hgo) hfailure

theorem failJob_job_good {s : State} (at_ : Stage) (e : IoError) (h : s.job.Good) : (failJob at_ e s).job.Good where
  cursor_le := h.cursor_le
  stage_eq := absurd rfl
  failure_iff := iff_of_false nofun (absurd rfl)

/-! ### The host's side beside the block -/

/-- R138, R139: a job that fails leaves the block alone. -/
theorem failJob_good {s : State} (at_ : Stage) (e : IoError) (h : s.Good) : (failJob at_ e s).Good :=
  { h with job_good := failJob_job_good at_ e h.job_good }

theorem writePart_good {s : State} (bs : List Byte) (h : s.Good) : (writePart bs s).Good :=
  { h with job_good := { h.job_good with } }

theorem sendBytes_good {s : State} (step : JobStep) (bs : List Byte) (h : s.Good) : (sendBytes step bs s).Good := by
  obtain ⟨-, hs⟩ | ⟨ho, -, hs⟩ | ⟨-, -, hs⟩ | ⟨-, -, hs⟩ := sendBytes_cases step bs s <;> rw [hs]
  · exact h
  · exact { h with job_good := advance_good step (j := writeAll bs s.job) { h.job_good with } ho }
  · exact failJob_good _ _ (writePart_good bs h)
  · exact failJob_good _ _ (writePart_good bs h)

theorem rememberMedia_good {s : State} (flags : List Byte) (h : s.Good) : (rememberMedia flags s).Good := by
  unfold rememberMedia
  split
  · exact h
  · exact { h with job_good := { h.job_good with } }

theorem transferStream_good {s : State} (h : s.Good) : (transferStream s).Good := by
  unfold transferStream
  split
  · exact h
  · exact sendBytes_good _ _ { h with job_good := { h.job_good with } }

theorem openTransport_good {s : State} (name : String) (ch : Channel) (h : s.Good) :
    (openTransport name ch s).Good := by
  obtain ⟨-, hs⟩ | ⟨-, -, hs⟩ | ⟨-, e, -, hs⟩ := openTransport_cases name ch s <;> rw [hs]
  · exact h
  · exact { h with job_good := { h.job_good with } }
  · exact failJob_good _ _ h

/-! ### What is written into `IN` -/

/-- R20, R177: `IN` is written between operations, within `MAX_BYTES`. -/
theorem setInput_good {s : State} {bs : List Byte} (h : s.Good) (ha : s.activity = .idle)
    (hle : bs.length ≤ s.cfg.maxBytes) : State.Good { s with inp := Memory.ofBytes bs } :=
  { h with
    inp_wf := Memory.wf_ofBytes bs
    inp_le := by rwa [Memory.length_ofBytes]
    pos_le := absurd ha
    in_payload := fun hp => nomatch ha.symm.trans hp }

theorem loadInput_good {s t : State} {bs : List Byte} (h : s.Good) (ha : s.activity = .idle)
    (hl : loadInput bs s = .next t) : t.Good := by
  obtain ⟨hle, rfl⟩ := loadInput_next hl
  exact setInput_good h ha hle

theorem receiveReply_good {s t : State} (h : s.Good) (ha : s.activity = .idle) (hr : receiveReply s = .next t) :
    t.Good := by
  obtain ⟨-, rfl⟩ | ⟨rest, -, rfl⟩ | ⟨bs, rest, -, hle, rfl⟩ := receiveReply_next hr
  · exact failJob_good _ _ { h with job_good := { h.job_good with } }
  · exact failJob_good _ _ { h with job_good := { h.job_good with } }
  · exact { setInput_good h ha hle with job_good := { h.job_good with } }

theorem keepQuery_good (r : ReplyStatus) (j : Job) (h : j.Good) : (keepQuery r j).Good := { h with }

theorem keepFinal_good (r : ReplyStatus) (j : Job) (h : j.Good) : (keepFinal r j).Good := { h with }

/-- A reply that the job keeps changes nothing that the job's invariant speaks of. -/
theorem keepReply_good {keep : ReplyStatus → Job → Job} {a : Answer} {t : State}
    (hkeep : ∀ r j, Job.Good j → (keep r j).Good) (ha : ∀ v, a = .next v → v.Good)
    (h : keepReply keep a = .next t) : t.Good := by
  obtain ⟨v, hv, ⟨-, rfl⟩ | ⟨-, rfl⟩⟩ := keepReply_next h
  · exact ha t hv
  · exact { ha v hv with job_good := hkeep _ _ (ha v hv).job_good }

theorem execQueryStatus_good {s t : State} (h : s.Good) (ha : s.activity = .idle)
    (hq : execQueryStatus s = .next t) : t.Good := by
  have hsent := sendBytes_good .queryStatus (commandBytes .queryStatus) h
  have hidle := (sendBytes_sameBlock .queryStatus (commandBytes .queryStatus) s).activity.trans ha
  unfold execQueryStatus at hq
  split at hq
  · exact next_injective hq ▸ hsent
  · exact keepReply_good keepQuery_good (fun _ => receiveReply_good hsent hidle) hq

theorem readFinalStatus_good {s t : State} (h : s.Good) (ha : s.activity = .idle)
    (hr : readFinalStatus s = .next t) : t.Good := by
  obtain rfl | ⟨ho, hk⟩ := readFinalStatus_next hr
  · exact h
  · have hadv : State.Good { s with job := advance .readStatus s.job } :=
      { h with job_good := advance_good .readStatus h.job_good ho }
    exact keepReply_good keepFinal_good (fun _ => receiveReply_good hadv ha) hk

theorem exec_command_good {i : Instr} {st : JobStep} {s t : State} (h : s.Good) (ha : s.activity = .idle)
    (hc : commandStep i = some st) (hgo : exec i s = .next t) : t.Good := by
  by_cases hi : i = .queryStatus
  · subst hi
    exact execQueryStatus_good h ha hgo
  · have hsent := sendBytes_good st (commandBytes i) h
    obtain he | ⟨flags, he⟩ := exec_command hc hi s <;> rw [he] at hgo
    · exact next_injective hgo ▸ hsent
    · exact next_injective hgo ▸ rememberMedia_good flags hsent

end Sys2Proof.Machine

end

/-! ## 10_state.md: the invariant over an operation -/

section

namespace Sys2Proof.Machine

open Sys2Proof

/-- R15, R39: an operation ends with an `OUT` within `MAX_BYTES`, which before the first operation is empty. -/
theorem finish_good {s : State} {r : Result} {out : Memory} (h : s.Good) (hwf : out.wf)
    (hle : out.length ≤ s.cfg.maxBytes) (hst : s.started = false → out = [])
    (hr : r.code = .ok → r.pos = 0 ∧ r.aux = 0) : (finish r { s with out := out }).Good :=
  { h with
    out_wf := hwf
    out_le := hle
    pos_le := absurd rfl
    out_lines := absurd rfl
    in_payload := nofun
    no_payload := fun _ => ⟨rfl, rfl, rfl⟩
    result_ok := hr
    not_started := fun hs =>
      have ⟨hsf, hcls, _, _⟩ := h.not_started hs
      ⟨hsf, hcls, hst hs, rfl⟩ }

/-- R155: so does an error, whose cause is never `ok`. -/
theorem raise_good {s : State} {c : Cause} (pos aux : Nat) (h : s.Good) (hc : c ≠ .ok) : (raise c pos aux s).Good :=
  finish_good h Memory.wf_nil (Nat.zero_le _) (fun _ => rfl) (absurd · hc)

/-- U8: between operations `LINE` and `K` hold any value. -/
theorem forgetLine_good {s : State} (h : s.Good) (ha : s.activity = .idle) : (forgetLine s).Good :=
  { h with line_len := freeLine_length _ _, out_lines := absurd ha }

/-- U8: between operations `POS` holds any value. -/
theorem forgetCursor_good {s : State} (h : s.Good) (ha : s.activity = .idle) : (forgetCursor s).Good :=
  { h with pos_le := absurd ha, in_payload := fun hp => nomatch ha.symm.trans hp }

theorem raiseFraming_good {s : State} {c : Cause} (pos aux : Nat) (h : s.Good) (hc : c ≠ .ok) :
    (raiseFraming c pos aux s).Good :=
  forgetCursor_good (forgetLine_good (raise_good pos aux h hc) rfl) rfl

theorem endDecode_good {s : State} {out : Memory} (h : s.Good) (hwf : out.wf) (hle : out.length ≤ s.cfg.maxBytes)
    (hst : s.started = false → out = []) : (endDecode { s with out := out }).Good :=
  forgetCursor_good (forgetLine_good (finish_good h hwf hle hst fun _ => ⟨rfl, rfl⟩) rfl) rfl

/-- The walk through a stream ends with an `OUT` within `MAX_BYTES` or with an error's cause. -/
def StreamEnd.Good (c : Config) : StreamEnd → Prop
  | .done out => out.length ≤ c.maxBytes
  | .error cause _ _ => cause ≠ .ok
  | .overflow => True

theorem decodeFrom_good (c : Config) (fuel : Nat) (bs : List Byte) (pos : Nat) (out : List Byte)
    (h : out.length ≤ c.maxBytes) : (decodeFrom c fuel bs pos out).Good c := by
  induction fuel generalizing bs pos out with
  | zero => exact h
  | succ fuel ih =>
    unfold decodeFrom
    cases readPacket c.toFormat bs with
    | exhausted => exact h
    | illegal b => exact nofun
    | truncated left => exact nofun
    | overrun n => exact nofun
    | packet payload rest =>
      dsimp only
      cases hr : readLine c out.length payload with
      | malformed q => exact nofun
      | wrongLength len => exact nofun
      | overflow => trivial
      | line u =>
        obtain ⟨-, hlen, hroom⟩ := readLine_line hr
        exact ih _ _ _ (by rw [List.length_append, hlen]; exact hroom)

/-! ### The four operations, once an operation was presented -/

theorem exec_encode_good {s t : State} (h : s.Good) (hs : s.started = true) (hgo : exec .encode s = .next t) :
    t.Good := by
  obtain ⟨-, rfl⟩ | ⟨-, hle, rfl⟩ := execEncode_next hgo
  · exact forgetLine_good (raise_good _ _ h nofun) rfl
  · exact forgetLine_good
      (finish_good h (Memory.wf_ofBytes _) (by rwa [Memory.length_ofBytes]) (fun hf => nomatch hs.symm.trans hf)
        fun _ => ⟨rfl, rfl⟩) rfl

theorem exec_decode_good {s t : State} (h : s.Good) (hs : s.started = true) (hgo : exec .decode s = .next t) :
    t.Good := by
  have hend : (decodeStream s.cfg s.inp.bytes).Good s.cfg := decodeFrom_good _ _ _ _ _ (Nat.zero_le _)
  obtain ⟨out, hd, rfl⟩ | ⟨c, pos, aux, hd, rfl⟩ := execDecode_next hgo <;> rw [hd] at hend
  · exact endDecode_good h (Memory.wf_ofBytes _) (by rwa [Memory.length_ofBytes]) fun hf => nomatch hs.symm.trans hf
  · exact raiseFraming_good pos aux h hend

/-- R16: `SF` holds no record or one that agrees with its own bytes. -/
theorem setSf_good {s : State} {sf : Option StatusFrame} (h : s.Good) (hs : s.started = true)
    (hf : ∀ f, sf = some f → f.Consistent s.cfg) : State.Good { s with sf := sf } :=
  { h with sf_ok := hf, not_started := fun hn => nomatch hs.symm.trans hn }

/-- R18: `CLASS` holds a record that agrees with its own bytes. -/
theorem setCls_good {s : State} {r : ClassRecord} (h : s.Good) (hs : s.started = true) (hr : r.Consistent s.cfg) :
    State.Good { s with cls := some r } :=
  { h with
    cls_ok := fun _ he => Option.some.inj he ▸ hr
    not_started := fun hn => nomatch hs.symm.trans hn }

theorem parseFrame_consistent (c : Config) (raw : List Byte) : (parseFrame c raw).Consistent c := ⟨rfl, rfl, rfl⟩

theorem exec_parse_good {s t : State} (h : s.Good) (hs : s.started = true) (hgo : exec .parse s = .next t) :
    t.Good := by
  obtain ⟨-, he⟩ | ⟨-, he⟩ := execParse_cases s <;> obtain rfl := next_injective (he.symm.trans hgo)
  · exact raise_good _ _ (setSf_good h hs nofun) nofun
  · have hsf := setSf_good (sf := some (parseFrame s.cfg (memRead s.inp 0 s.cfg.frameLen))) h hs
      fun _ hf => Option.some.inj hf ▸ parseFrame_consistent _ _
    exact finish_good hsf Memory.wf_nil (Nat.zero_le _) (fun _ => rfl) fun _ => ⟨rfl, rfl⟩

theorem exec_classify_good {s t : State} {e1 e2 : Byte} (h : s.Good) (hs : s.started = true)
    (hgo : exec (.classify e1 e2) s = .next t) : t.Good := by
  obtain rfl := next_injective hgo
  have hcls := setCls_good (r := ⟨classifyFn s.cfg e1 e2, e1, e2⟩) h hs rfl
  exact finish_good hcls Memory.wf_nil (Nat.zero_le _) (fun _ => rfl) fun _ => ⟨rfl, rfl⟩

theorem exec_decodeOp_good {w : OpWord} {s t : State} (h : s.Good) (hs : s.started = true)
    (hgo : exec (decodeOp w) s = .next t) : t.Good := by
  obtain he | he | he | ⟨e1, e2, he⟩ := decodeOp_cases w <;> rw [he] at hgo
  · exact exec_encode_good h hs hgo
  · exact exec_decode_good h hs hgo
  · exact exec_parse_good h hs hgo
  · exact exec_classify_good h hs hgo

end Sys2Proof.Machine

end

/-! ## 10_state.md: the invariant over an observed DECODE -/

section

namespace Sys2Proof.Machine

open Sys2Proof

theorem startDecode_good {s : State} (tokens : Bool) (h : s.Good) :
    State.Good { startDecode tokens s with started := true } :=
  { h with
    out_wf := Memory.wf_nil
    out_le := Nat.zero_le _
    pos_le := fun _ => Nat.zero_le _
    out_lines := fun _ => (Nat.zero_mul _).symm
    in_payload := nofun
    no_payload := fun _ => ⟨rfl, rfl, rfl⟩
    not_started := nofun }

/-- A DECODE in progress was presented. -/
theorem State.Good.started_ne_false {s : State} (h : s.Good) (ha : s.activity ≠ .idle) : s.started ≠ false := by
  intro hs
  obtain ⟨-, -, -, hidle⟩ := h.not_started hs
  exact ha hidle

/-- R85, R88: a line of `L` bytes that has room in `OUT` is accepted, its packet lying in the stream. -/
theorem acceptLine_good {s : State} {tokens : Bool} {u : List Byte} {n : Nat} (h : s.Good)
    (ha : s.activity = .packet tokens) (hfits : s.pos + s.cfg.headerLen + n ≤ s.inp.length) (hlen : u.length = s.cfg.L)
    (hroom : s.out.length + s.cfg.L ≤ s.cfg.maxBytes) : (acceptLine u n s).Good :=
  have hactive : s.activity ≠ .idle := by simp [ha]
  { h with
    out_wf := memAppend_wf _ _
    out_le := by simpa [hlen] using hroom
    line_len := hlen
    pos_le := fun _ => hfits
    out_lines := fun _ => by
      rw [acceptLine_out, memAppend_length, h.out_lines hactive, hlen]
      exact (Nat.succ_mul s.k s.cfg.L).symm
    in_payload := fun hp => nomatch ha.symm.trans hp
    not_started := (absurd · (h.started_ne_false hactive)) }

/-- A packet that lies in the stream keeps the invariant, whatever its payload comes to. -/
theorem packetEffect_good {s t : State} {tokens : Bool} {r : LineRead} {n : Nat} (h : s.Good)
    (ha : s.activity = .packet tokens) (hfits : s.pos + s.cfg.headerLen + n ≤ s.inp.length)
    (hline : ∀ u, r = .line u → u.length = s.cfg.L ∧ s.out.length + s.cfg.L ≤ s.cfg.maxBytes)
    (hgo : packetEffect n r s = .next t) : t.Good := by
  obtain ⟨q, -, rfl⟩ | ⟨len, -, rfl⟩ | ⟨u, hr, rfl⟩ := packetEffect_next hgo
  · exact raiseFraming_good _ _ h nofun
  · exact raiseFraming_good _ _ h nofun
  · obtain ⟨hlen, hroom⟩ := hline u hr
    exact acceptLine_good h ha hfits hlen hroom

/-- A whole packet at the cursor lies in the stream. -/
theorem packet_fits {s : State} {payload rest : List Byte} (h : s.pos ≤ s.inp.length)
    (hp : readPacket s.cfg.toFormat (streamLeft s) = .packet payload rest) :
    s.pos + s.cfg.headerLen + payload.length ≤ s.inp.length := by
  have hlen := congrArg List.length (readPacket_packet hp).1
  rw [streamLeft, List.length_drop, Memory.length_bytes, List.length_append, wrapPacket_length] at hlen
  have hhead : s.cfg.headerLen = 1 + s.cfg.lenBytes := rfl
  omega

theorem afterPayload_good {s : State} (h : s.Good) (ha : s.activity = .payload) : (afterPayload s).Good :=
  have hactive : s.activity ≠ .idle := by simp [ha]
  { h with
    pos_le := fun _ => h.pos_le hactive
    out_lines := fun _ => h.out_lines hactive
    in_payload := nofun
    no_payload := fun _ => ⟨rfl, rfl, rfl⟩
    not_started := (absurd · (h.started_ne_false hactive)) }

theorem enterPayload_good {s : State} {n : Nat} (h : s.Good) (ha : s.activity = .packet true)
    (hfits : s.pos + s.cfg.headerLen + n ≤ s.inp.length) :
    State.Good { s with u := [], q := 0, n := n, activity := .payload } :=
  have hactive : s.activity ≠ .idle := by simp [ha]
  { h with
    pos_le := fun _ => h.pos_le hactive
    out_lines := fun _ => h.out_lines hactive
    in_payload := fun _ => ⟨hfits, Nat.zero_le _⟩
    no_payload := absurd rfl
    not_started := (absurd · (h.started_ne_false hactive)) }

theorem tokenEffect_good {s : State} {output : List Byte} {len : Nat} (h : s.Good) (ha : s.activity = .payload)
    (hwhole : len ≤ (payloadLeft s).length) : (tokenEffect output len s).Good :=
  { h with
    in_payload := fun _ => by
      obtain ⟨hfits, hq⟩ := h.in_payload ha
      rw [payloadLeft, memRead_length] at hwhole
      refine ⟨hfits, ?_⟩
      rw [tokenEffect_q, tokenEffect_n]
      omega
    no_payload := absurd ha }

theorem StreamStep.good {s t : State} (h : s.Good) (hgo : StreamStep s t) : t.Good := by
  cases hgo with
  | malformed active cause => exact raiseFraming_good _ _ h cause
  | done boundary atEnd =>
    refine endDecode_good h h.out_wf h.out_le fun hs => ?_
    obtain ⟨-, -, hout, -⟩ := h.not_started hs
    exact hout
  | packet boundary read go =>
    have hpos := h.pos_le (by simp [boundary])
    refine packetEffect_good h boundary (packet_fits hpos read) (fun u hr => ?_) go
    obtain ⟨-, hlen, hroom⟩ := readLine_line hr
    exact ⟨hlen, hroom⟩
  | enter boundary read =>
    have hpos := h.pos_le (by simp [boundary])
    exact enterPayload_good h boundary (packet_fits hpos read)
  | token inside whole => exact tokenEffect_good h inside whole
  | leave inside go =>
    refine packetEffect_good (afterPayload_good h inside) rfl (h.in_payload inside).1 (fun u hr => ?_) go
    obtain ⟨rfl, hlen, hroom⟩ := checkLine_line hr
    exact ⟨hlen, hroom⟩

end Sys2Proof.Machine

end

/-! ## 10_state.md: every step keeps the invariant -/

section

namespace Sys2Proof.Machine

open Sys2Proof

/-- A move that is taken off the list changes nothing that the invariant speaks of. -/
theorem setHost_good {s : State} (rest : List Move) (h : s.Good) : State.Good { s with host := rest } :=
  { h with }

/-- R19: nothing was computed under another configuration, so a new one, within its bounds, contradicts nothing. -/
theorem setConfiguration_good {c : Settings} {s t : State} (h : s.Good) (hgo : setConfiguration c s = .next t) :
    t.Good := by
  obtain ⟨hstarted, hwf, hin, hout, rfl⟩ := setConfiguration_next hgo
  obtain ⟨hsf, hcls, -, ha⟩ := h.not_started hstarted
  exact
    { h with
      cfg_wf := hwf
      inp_le := hin
      out_le := hout
      line_len := freeLine_length _ _
      out_lines := absurd ha
      in_payload := fun hp => nomatch ha.symm.trans hp
      sf_ok := fun f hf => nomatch hsf.symm.trans hf
      cls_ok := fun r hr => nomatch hcls.symm.trans hr }

theorem hostMove_good {m : Move} {s t : State} (h : s.Good) (ha : s.activity = .idle) (hgo : hostMove m s = .next t) :
    t.Good := by
  cases m
  case load bs => exact loadInput_good h ha hgo
  case copyOut => exact loadInput_good h ha hgo
  case configure c => exact setConfiguration_good h hgo
  case present w => exact next_injective hgo ▸ h
  case trace tokens => exact next_injective hgo ▸ startDecode_good tokens h
  case command bs => exact next_injective hgo ▸ h
  case transfer => exact next_injective hgo ▸ transferStream_good h
  case readStatus => exact readFinalStatus_good h ha hgo
  case collect => exact next_injective hgo ▸ { h with job_good := { h.job_good with } }
  case readSf =>
    simp only [hostMove] at hgo
    split_ifs at hgo
    exact next_injective hgo ▸ h
  case readClass =>
    simp only [hostMove] at hgo
    split_ifs at hgo
    exact next_injective hgo ▸ h
  case startJob => exact next_injective hgo ▸ { h with job_good := { job_atIdle_good with } }
  case openTransport name ch => exact next_injective hgo ▸ openTransport_good name ch h
  case link l => exact next_injective hgo ▸ { h with job_good := { h.job_good with } }
  case deliver r => exact next_injective hgo ▸ { h with job_good := { h.job_good with } }
  case resetInput => exact next_injective hgo ▸ { h with job_good := { h.job_good with } }
  case reset => exact next_injective hgo ▸ resetBlock_good h.job_good

/-- Settles O3: each thing a step can do keeps the invariant. -/
theorem stepKeepsGood : Obligations.StepKeepsGood := by
  intro s t h hstep
  cases stepped_of_step hstep with
  | reset host => exact resetBlock_good h.job_good
  | wait idle host => exact h
  | @move m rest _ idle host notReset go => exact hostMove_good (setHost_good rest h) idle go
  | operation idle fetched go =>
    have hstarted : State.Good { s with started := true } := { h with not_started := nofun }
    exact exec_decodeOp_good (setHost_good _ hstarted) rfl go
  | @command bs i st rest _ idle fetched decoded isCommand go =>
    exact exec_command_good (setHost_good rest h) idle isCommand go
  | stream go => exact go.good h

end Sys2Proof.Machine

end

/-! ## 20_memory.md: who writes `IN` -/

section

namespace Sys2Proof.Machine

open Sys2Proof

/-- R20: an error or an accepted line of a packet leaves `IN` alone. -/
theorem packetEffect_inp {n : Nat} {r : LineRead} {s t : State} (h : packetEffect n r s = .next t) :
    t.inp = s.inp := by
  obtain ⟨q, -, rfl⟩ | ⟨len, -, rfl⟩ | ⟨u, -, rfl⟩ := packetEffect_next h
  · exact raiseFraming_inp _ _ _ _
  · exact raiseFraming_inp _ _ _ _
  · exact acceptLine_inp _ _ _

/-- R20: a DECODE in progress only reads `IN`. -/
theorem StreamStep.inp_eq {s t : State} (h : StreamStep s t) : t.inp = s.inp := by
  cases h with
  | malformed active cause => exact raiseFraming_inp _ _ _ _
  | done boundary atEnd => exact endDecode_inp s
  | packet boundary read go => exact packetEffect_inp go
  | enter boundary read => rfl
  | token inside whole => exact tokenEffect_inp _ _ s
  | leave inside go => exact packetEffect_inp (s := afterPayload s) go

/-- R20: an operation only reads `IN`. -/
theorem exec_decodeOp_inp {w : OpWord} {s t : State} (h : exec (decodeOp w) s = .next t) : t.inp = s.inp := by
  obtain he | he | he | ⟨e1, e2, he⟩ := decodeOp_cases w <;> rw [he] at h
  · obtain ⟨-, rfl⟩ | ⟨-, -, rfl⟩ := execEncode_next h <;> simp
  · obtain ⟨out, -, rfl⟩ | ⟨c, pos, aux, -, rfl⟩ := execDecode_next h <;> simp
  · obtain ⟨-, hp⟩ | ⟨-, hp⟩ := execParse_cases s <;> obtain rfl := next_injective (hp.symm.trans h) <;> simp
  · obtain rfl := next_injective h
    simp

theorem transferStream_inp (s : State) : (transferStream s).inp = s.inp := by
  unfold transferStream
  split
  · rfl
  · exact (sendBytes_sameBlock _ _ _).inp

theorem openTransport_inp (name : String) (ch : Channel) (s : State) : (openTransport name ch s).inp = s.inp := by
  obtain ⟨-, h⟩ | ⟨-, -, h⟩ | ⟨-, e, -, h⟩ := openTransport_cases name ch s
  · rw [h]
  · rw [h]
  · rw [h, failJob_inp]

/-- The moves that put bytes into `IN`: what the host loads, a copy of `OUT`, and a status reply (R30, log 17). -/
def WritesInput (m : Move) : Prop := (∃ bs, m = .load bs) ∨ m = .copyOut ∨ m = .readStatus

/-- Every other move but a reset leaves `IN` alone. -/
theorem hostMove_inp {m : Move} {s t : State} (hreset : m ≠ .reset) (hwrites : ¬ WritesInput m)
    (h : hostMove m s = .next t) : t.inp = s.inp := by
  cases m
  case load bs => exact absurd (.inl ⟨bs, rfl⟩) hwrites
  case copyOut => exact absurd (.inr (.inl rfl)) hwrites
  case readStatus => exact absurd (.inr (.inr rfl)) hwrites
  case reset => exact absurd rfl hreset
  case configure c =>
    obtain ⟨-, -, -, -, rfl⟩ := setConfiguration_next h
    rfl
  case transfer => exact next_injective h ▸ transferStream_inp s
  case openTransport name ch => exact next_injective h ▸ openTransport_inp name ch s
  case readSf =>
    simp only [hostMove] at h
    split_ifs at h
    exact next_injective h ▸ rfl
  case readClass =>
    simp only [hostMove] at h
    split_ifs at h
    exact next_injective h ▸ rfl
  all_goals exact next_injective h ▸ rfl

/-- R128: only the three bytes `1B 69 53` are a QUERY_STATUS. -/
theorem eq_of_decodeCommand_queryStatus {bs : List Byte} (h : decodeCommand bs = .ok .queryStatus) :
    bs = [0x1B#8, 0x69#8, 0x53#8] := by
  revert h
  fun_cases decodeCommand bs
  case case7 htake hdrop =>
    intro _
    rw [← List.take_append_drop 3 bs, htake, hdrop, List.append_nil]
  all_goals rintro ⟨⟩

/-- Settles O15: of everything a step can do, only a reset, the three moves that bring bytes and QUERY_STATUS, whose
reply the host hands over, write `IN`. -/
theorem onlyTheHostWritesTheInput : Obligations.OnlyTheHostWritesTheInput := by
  intro s t h
  cases stepped_of_step h with
  | reset host => exact .inr (.inr (.inl ⟨_, host⟩))
  | wait idle host => exact .inl rfl
  | @move m rest _ idle host notReset go =>
    by_cases hwrites : WritesInput m
    · exact .inr (.inl ⟨idle, m, rest, host, hwrites⟩)
    · exact .inl (hostMove_inp (s := { s with host := rest }) notReset hwrites go)
  | @operation w rest _ idle fetched go =>
    exact .inl (exec_decodeOp_inp (s := { s with host := rest, started := true }) go)
  | @command bs i st rest _ idle fetched decoded isCommand go =>
    by_cases hquery : i = .queryStatus
    · subst hquery
      exact .inr (.inr (.inr ⟨idle, eq_of_decodeCommand_queryStatus decoded ▸ fetched⟩))
    · exact .inl (exec_command_leaves isCommand hquery go).inp
  | stream go => exact .inl go.inp_eq

end Sys2Proof.Machine

end

/-! ## 30_encoding.md: the packet's length field -/

section

namespace Sys2Proof.Machine

open Sys2Proof

/-- Settles O7: with two bytes the length field is `le16` when it is read, and `lo8` and `hi8` when it is written. -/
theorem packetLengthIsLittleEndian : Obligations.PacketLengthIsLittleEndian := by
  refine ⟨fun lo hi body => ?_, fun lo hi => ?_, fun p hp => ?_⟩
  · have htake : (lo :: hi :: body).take Format.source.lenBytes = [lo, hi] := rfl
    have hdrop : (lo :: hi :: body).drop Format.source.lenBytes = body := rfl
    have hlen : (lo :: hi :: body).length = body.length + Format.source.lenBytes := rfl
    have hop : ¬ (0x47#8 ≠ Format.source.xferOp) := by decide
    rw [readPacket, if_neg hop, if_neg (by omega), htake, hdrop, hlen, Nat.add_sub_cancel, leNat_pair]
    rfl
  · have := lo.isLt
    have := hi.isLt
    omega
  · refine ⟨lo8 p.length, hi8 p.length, ?_, lo8_toNat _, ?_⟩
    · rw [wrapPacket, show Format.source.lenBytes = 2 from rfl, leBytes_two]
      rfl
    · rw [hi8_toNat]
      omega

end Sys2Proof.Machine

end

/-! ## 30_encoding.md: what the decoder reads of what the encoder writes -/

section

namespace Sys2Proof.Machine

open Sys2Proof

/-! ### Operation words (R50) -/

@[simp] theorem opWord_op (op : BitVec 2) (e1 e2 : Byte) : (opWord op e1 e2).extractLsb' 0 2 = op :=
  BitVec.extractLsb'_append_eq_right

@[simp] theorem opWord_e1 (op : BitVec 2) (e1 e2 : Byte) : (opWord op e1 e2).extractLsb' 2 8 = e1 :=
  (BitVec.extractLsb'_append_eq_of_le le_rfl).trans BitVec.extractLsb'_append_eq_right

@[simp] theorem opWord_e2 (op : BitVec 2) (e1 e2 : Byte) : (opWord op e1 e2).extractLsb' 10 8 = e2 :=
  (BitVec.extractLsb'_append_eq_of_le (by decide)).trans BitVec.extractLsb'_append_eq_left

/-- The three fields are the whole word. -/
theorem opWord_fields (w : OpWord) :
    opWord (w.extractLsb' 0 2) (w.extractLsb' 2 8) (w.extractLsb' 10 8) = w := by
  rw [opWord, BitVec.extractLsb'_append_extractLsb'_eq_extractLsb' (start₁ := 2) (len₁ := 8) rfl,
    BitVec.extractLsb'_append_extractLsb'_eq_extractLsb' (start₁ := 0) (len₁ := 2) rfl, BitVec.extractLsb'_eq_self]

/-! ### Tokens (R54, R55) -/

theorem readToken_emitLit {data : List Byte} (rest : List Byte) (hpos : 1 ≤ data.length) (hle : data.length ≤ 128) :
    readToken (emitLit data ++ rest) = .literal data rest := by
  have hcontrol : (BitVec.ofNat 8 (data.length - 1)).toNat = data.length - 1 := by
    rw [BitVec.toNat_ofNat]
    omega
  have hlit : data.length - 1 ≤ 0x7F := by omega
  simp [emitLit, readToken, hcontrol, hlit, Nat.sub_add_cancel hpos]

theorem readToken_emitRep {count : Nat} (b : Byte) (rest : List Byte) (hlo : 2 ≤ count) (hhi : count ≤ 128) :
    readToken (emitRep count b ++ rest) = .run count b rest := by
  have hcontrol : (BitVec.ofNat 8 (257 - count)).toNat = 257 - count := by
    rw [BitVec.toNat_ofNat]
    omega
  have hnop : BitVec.ofNat 8 (257 - count) ≠ 0x80#8 := fun h => by
    have h80 : 257 - count = 0x80 := hcontrol.symm.trans (congrArg BitVec.toNat h)
    omega
  have hrep : ¬ 257 - count ≤ 0x7F := by omega
  have hback : 257 - (257 - count) = count := by omega
  simp only [emitRep, List.cons_append, List.nil_append, readToken, hcontrol, if_neg hrep, if_neg hnop, hback]

theorem readToken_nop (rest : List Byte) : readToken ([0x80#8] ++ rest) = .skip rest := rfl

/-! ### Packets (R51, R57) -/

theorem readPacket_of_ne {p : Format} {b : Byte} (rest : List Byte) (h : b ≠ p.xferOp) :
    readPacket p (b :: rest) = .illegal b := by
  rw [readPacket, if_pos h]

/-! ### Wire commands (R126 to R137) -/

/-- A wire command's code is its bytes, in every format. -/
theorem encode_of_commandStep {i : Instr} {st : JobStep} (h : commandStep i = some st) (p : Format) :
    encode p i = .command (commandBytes i) := by
  cases i
  all_goals cases h
  all_goals rfl

/-- R129: one zero byte or more is a flush. -/
theorem decodeCommand_flush {count : Nat} (h : 1 ≤ count) :
    decodeCommand (List.replicate count 0x00#8) = .ok (.flush count) := by
  have hne : List.replicate count 0x00#8 ≠ [] := by simp; omega
  rw [decodeCommand, if_neg hne, if_pos (by simp), List.length_replicate]

/-- Each command's bytes are read as that command. -/
theorem decodeCommand_commandBytes {p : Format} {i : Instr} {st : JobStep} (h : commandStep i = some st)
    (hwf : i.wf p = true) : decodeCommand (commandBytes i) = .ok i := by
  cases i
  case flush count => exact decodeCommand_flush (of_decide_eq_true hwf)
  all_goals cases h
  all_goals simp [commandBytes, decodeCommand]

/-- Settles O4: in each of the four spaces the reader takes exactly what the encoder wrote. -/
theorem decodeReadsWhatEncodeWrites : Obligations.DecodeReadsWhatEncodeWrites := by
  intro p i more hwf
  cases hc : commandStep i with
  | some st =>
    rw [encode_of_commandStep hc, Code.followedBy, decode, decodeCommand_commandBytes hc hwf]
  | none =>
    cases i
    case encode | decode | parse | classify e1 e2 => simp [encode, Code.followedBy, decode, decodeOp]
    case xfer payload =>
      have hlen : payload.length < 256 ^ p.lenBytes := of_decide_eq_true hwf
      simp only [encode, Code.followedBy, decode, readPacket_wrapPacket p payload more hlen]
    case illegalStreamOpcode b =>
      have hb : b ≠ p.xferOp := bne_iff_ne.mp hwf
      simp only [encode, Code.followedBy, decode, List.singleton_append, readPacket_of_ne more hb, List.drop_one,
        List.tail_cons]
    case lit data =>
      obtain ⟨hpos, hle⟩ : 1 ≤ data.length ∧ data.length ≤ 128 := by simpa [Instr.wf] using hwf
      simp only [encode, Code.followedBy, decode, readToken_emitLit more hpos hle]
    case rep count b =>
      obtain ⟨hlo, hhi⟩ : 2 ≤ count ∧ count ≤ 128 := by simpa [Instr.wf] using hwf
      simp only [encode, Code.followedBy, decode, readToken_emitRep b more hlo hhi]
    case nop => simp only [encode, Code.followedBy, decode, readToken_nop]
    all_goals cases hc

end Sys2Proof.Machine

end

/-! ## 30_encoding.md: a code has one meaning -/

section

namespace Sys2Proof.Machine

open Sys2Proof

/-- R57: only a byte other than `XFER_OP` is an illegal opcode. -/
theorem readPacket_illegal {p : Format} {bs : List Byte} {b : Byte} (h : readPacket p bs = .illegal b) :
    b ≠ p.xferOp ∧ bs = b :: bs.drop 1 := by
  cases bs with
  | nil => cases h
  | cons c tl =>
    simp only [readPacket] at h
    split_ifs at h with hop
    injection h with hb
    exact hb ▸ ⟨hop, rfl⟩

/-- R50: the two low bits of an operation word are its operation; CLASSIFY's operands are the other bits. -/
theorem encode_decodeOp (p : Format) (w : OpWord) :
    (decodeOp w).wf p = true ∧ ∃ w', encode p (decodeOp w) = .op w' ∧ w'.extractLsb' 0 2 = w.extractLsb' 0 2 ∧
      (w.extractLsb' 0 2 = 3#2 → w' = w) := by
  unfold decodeOp
  split_ifs with h0 h1 h2
  · exact ⟨rfl, _, rfl, by rw [opWord_op, h0], fun h3 => absurd (h0.symm.trans h3) (by decide)⟩
  · exact ⟨rfl, _, rfl, by rw [opWord_op, h1], fun h3 => absurd (h1.symm.trans h3) (by decide)⟩
  · exact ⟨rfl, _, rfl, by rw [opWord_op, h2], fun h3 => absurd (h2.symm.trans h3) (by decide)⟩
  · have h3 : w.extractLsb' 0 2 = 3#2 := by
      generalize w.extractLsb' 0 2 = op at h0 h1 h2 ⊢
      revert op
      decide
    have hw : opWord 3#2 (w.extractLsb' 2 8) (w.extractLsb' 10 8) = w := by rw [← h3, opWord_fields]
    exact ⟨rfl, _, rfl, by rw [hw], fun _ => hw⟩

/-- What is read at a packet's start is well-formed, and its encoding stands there. -/
theorem encode_decode_packet {p : Format} {bs rest : List Byte} {i : Instr}
    (h : decode p (.packet bs) = .ok (i, rest)) :
    i.wf p = true ∧ (encode p i).followedBy rest = .packet bs := by
  rw [decode] at h
  cases hr : readPacket p bs with
  | exhausted => simp only [hr] at h; cases h
  | truncated left => simp only [hr] at h; cases h
  | overrun n => simp only [hr] at h; cases h
  | illegal b =>
    simp only [hr] at h
    cases h
    obtain ⟨hb, hbs⟩ := readPacket_illegal hr
    exact ⟨bne_iff_ne.mpr hb, congrArg Code.packet hbs.symm⟩
  | packet payload tail =>
    simp only [hr] at h
    cases h
    obtain ⟨hbs, hlen⟩ := readPacket_packet hr
    exact ⟨decide_eq_true hlen, congrArg Code.packet hbs.symm⟩

/-- What is read at a token's start is well-formed, and its encoding stands there. -/
theorem encode_decode_token {p : Format} {bs rest : List Byte} {i : Instr}
    (h : decode p (.token bs) = .ok (i, rest)) :
    i.wf p = true ∧ (encode p i).followedBy rest = .token bs := by
  rw [decode] at h
  cases hr : readToken bs with
  | exhausted => simp only [hr] at h; cases h
  | truncated => simp only [hr] at h; cases h
  | literal data tail =>
    simp only [hr] at h
    cases h
    obtain ⟨hbs, hpos, hle⟩ := readToken_literal hr
    exact ⟨by simp [Instr.wf, hpos, hle], congrArg Code.token hbs.symm⟩
  | run count b tail =>
    simp only [hr] at h
    cases h
    obtain ⟨hbs, hlo, hhi⟩ := readToken_run hr
    exact ⟨by simp [Instr.wf, hlo, hhi], congrArg Code.token hbs.symm⟩
  | skip tail =>
    simp only [hr] at h
    cases h
    exact ⟨rfl, congrArg Code.token (readToken_skip hr).symm⟩

/-- R125: what is read as a command has exactly that command's bytes. -/
theorem commandBytes_decodeCommand {bs : List Byte} {i : Instr} (h : decodeCommand bs = .ok i) (p : Format) :
    i.wf p = true ∧ commandBytes i = bs := by
  have htail {pre tl : List Byte} (ht : bs.take 3 = pre) (hd : bs.drop 3 = tl) : pre ++ tl = bs := by
    rw [← ht, ← hd, List.take_append_drop]
  revert h
  fun_cases decodeCommand bs
  all_goals rintro ⟨⟩
  case case2 hne hzero =>
    refine ⟨decide_eq_true (List.length_pos_iff.mpr hne), ?_⟩
    exact (List.eq_replicate_of_mem fun b hb => by simpa using List.all_eq_true.mp hzero b hb).symm
  all_goals refine ⟨rfl, ?_⟩
  case case3 hbs | case4 hbs | case5 hbs => exact hbs.symm
  case case6 ht => exact htail ht rfl
  case case7 ht hd | case9 ht m hd | case11 ht f hd | case13 ht f hd | case15 ht lo hi hd => exact htail ht hd

/-- Settles O5: what each of the four readers reads is in the range of the encoder, and nothing but its encoding is read
so. -/
theorem encodeWritesWhatDecodeReads : Obligations.EncodeWritesWhatDecodeReads := by
  intro p c i rest h
  cases c with
  | op w =>
    cases h
    exact encode_decodeOp p w
  | packet bs => exact encode_decode_packet h
  | token bs => exact encode_decode_token h
  | command bs =>
    rw [decode] at h
    cases hd : decodeCommand bs with
    | error e => simp only [hd] at h; cases h
    | ok j =>
      simp only [hd] at h
      cases h
      obtain ⟨hwf, hbs⟩ := commandBytes_decodeCommand hd p
      obtain ⟨st, hc⟩ := decodeCommand_ok hd
      exact ⟨hwf, (encode_of_commandStep hc p).trans (congrArg Code.command hbs), rfl⟩

end Sys2Proof.Machine

end

/-! ## 30_encoding.md: the streams DECODE accepts -/

section

namespace Sys2Proof.Machine

open Sys2Proof

/-! ### Good packets (R53, R56, R88) -/

theorem goodPackets_nil (c : Config) : GoodPackets c [] [] := ⟨rfl, nofun, nofun⟩

/-- A good packet in front of good packets. -/
theorem GoodPackets.cons {c : Config} {payload line : List Byte} {payloads lines : List (List Byte)}
    (hu : unpack payload = .ok line) (hshort : payload.length < 256 ^ c.lenBytes) (hline : line.length = c.L)
    (h : GoodPackets c payloads lines) : GoodPackets c (payload :: payloads) (line :: lines) where
  unpacked := by rw [List.map_cons, List.map_cons, hu, h.unpacked]
  short := List.forall_mem_cons.mpr ⟨hshort, h.short⟩
  line_len := List.forall_mem_cons.mpr ⟨hline, h.line_len⟩

/-- Without packets there are no lines. -/
theorem GoodPackets.lines_nil {c : Config} {lines : List (List Byte)} (h : GoodPackets c [] lines) : lines = [] :=
  List.map_eq_nil_iff.mp h.unpacked.symm

/-- The first of some good packets gives the first of their lines, and good packets are left. -/
theorem GoodPackets.uncons {c : Config} {payload : List Byte} {payloads lines : List (List Byte)}
    (h : GoodPackets c (payload :: payloads) lines) :
    ∃ line lines', lines = line :: lines' ∧ unpack payload = .ok line ∧ payload.length < 256 ^ c.lenBytes ∧
      line.length = c.L ∧ GoodPackets c payloads lines' := by
  obtain ⟨hu, hs, hl⟩ := h
  cases lines with
  | nil => cases hu
  | cons line lines' =>
    rw [List.map_cons, List.map_cons] at hu
    obtain ⟨hhead, htail⟩ := List.cons_eq_cons.mp hu
    obtain ⟨hshort, hs'⟩ := List.forall_mem_cons.mp hs
    obtain ⟨hline, hl'⟩ := List.forall_mem_cons.mp hl
    exact ⟨line, lines', rfl, hhead, hshort, hline, htail, hs', hl'⟩

theorem packetStream_cons (p : Format) (payload : List Byte) (payloads : List (List Byte)) :
    packetStream p (payload :: payloads) = wrapPacket p payload ++ packetStream p payloads :=
  List.flatMap_cons

/-- Every packet has its opcode byte. -/
theorem length_le_packetStream (p : Format) (payloads : List (List Byte)) :
    payloads.length ≤ (packetStream p payloads).length := by
  induction payloads with
  | nil => exact Nat.le.refl
  | cons payload payloads ih =>
    rw [packetStream_cons, List.length_append, wrapPacket_length, List.length_cons]
    omega

/-! ### The walk through a stream (R85) -/

/-- A payload that unpacks to `L` bytes gives its line while `OUT` has room for it. -/
theorem readLine_of_unpack {c : Config} {held : Nat} {payload line : List Byte} (hu : unpack payload = .ok line)
    (hline : line.length = c.L) (hroom : held + c.L ≤ c.maxBytes) : readLine c held payload = .line line := by
  rw [readLine_eq, hu, lineOf, checkLine, if_neg (not_not.mpr hline), if_neg (Nat.not_lt.mpr hroom)]

/-- Nothing is left to walk through. -/
theorem decodeFrom_nil (c : Config) (fuel pos : Nat) (out : List Byte) : decodeFrom c fuel [] pos out = .done out := by
  cases fuel <;> rfl

/-- Good packets in front of a stream are walked through, one line after the other, as long as `OUT` has room for them;
each takes one unit of fuel. -/
theorem decodeFrom_packetStream {c : Config} {payloads lines : List (List Byte)} (h : GoodPackets c payloads lines)
    (fuel : Nat) (rest : List Byte) (pos : Nat) {out : List Byte}
    (hroom : out.length + lines.flatten.length ≤ c.maxBytes) :
    decodeFrom c (fuel + payloads.length) (packetStream c.toFormat payloads ++ rest) pos out =
      decodeFrom c fuel rest (pos + (packetStream c.toFormat payloads).length) (out ++ lines.flatten) := by
  induction payloads generalizing lines pos out with
  | nil =>
    rw [h.lines_nil, List.flatten_nil, List.append_nil]
    rfl
  | cons payload payloads ih =>
    obtain ⟨line, lines, rfl, hu, hshort, hline, h'⟩ := h.uncons
    rw [List.flatten_cons, List.length_append] at hroom
    have hread := readPacket_wrapPacket c.toFormat payload (packetStream c.toFormat payloads ++ rest) hshort
    have hroom' : (out ++ line).length + lines.flatten.length ≤ c.maxBytes := by
      rw [List.length_append]
      omega
    rw [packetStream_cons, List.append_assoc, List.length_cons, ← Nat.add_assoc, decodeFrom, hread]
    simp only [readLine_of_unpack hu hline (by omega : out.length + c.L ≤ c.maxBytes)]
    rw [ih h' _ hroom', List.flatten_cons, List.append_assoc, List.length_append, wrapPacket_length, Format.headerLen]
    congr 1
    omega

/-- A walk that comes to its end has found good packets only, and appended their lines. -/
theorem decodeFrom_done {c : Config} {fuel pos : Nat} {bs out out' : List Byte} (hfuel : bs.length ≤ fuel)
    (h : decodeFrom c fuel bs pos out = .done out') :
    ∃ payloads lines, GoodPackets c payloads lines ∧ bs = packetStream c.toFormat payloads ∧
      out' = out ++ lines.flatten := by
  induction fuel generalizing bs pos out with
  | zero =>
    cases h
    exact ⟨[], [], goodPackets_nil c, List.eq_nil_of_length_eq_zero (Nat.le_zero.mp hfuel), (List.append_nil _).symm⟩
  | succ fuel ih =>
    rw [decodeFrom] at h
    cases hp : readPacket c.toFormat bs with
    | exhausted =>
      simp only [hp] at h
      cases h
      exact ⟨[], [], goodPackets_nil c, readPacket_exhausted hp, (List.append_nil _).symm⟩
    | illegal b => simp only [hp] at h; cases h
    | truncated left => simp only [hp] at h; cases h
    | overrun n => simp only [hp] at h; cases h
    | packet payload rest =>
      simp only [hp] at h
      obtain ⟨rfl, hshort⟩ := readPacket_packet hp
      rw [List.length_append, wrapPacket_length] at hfuel
      cases hr : readLine c out.length payload with
      | malformed q => simp only [hr] at h; cases h
      | wrongLength len => simp only [hr] at h; cases h
      | overflow => simp only [hr] at h; cases h
      | line u =>
        simp only [hr] at h
        obtain ⟨hu, hline, -⟩ := readLine_line hr
        obtain ⟨payloads, lines, hgood, rfl, rfl⟩ := ih (by omega) h
        exact ⟨payload :: payloads, u :: lines, hgood.cons hu hshort hline, (packetStream_cons _ _ _).symm,
          List.append_assoc _ _ _⟩

/-- R85: the whole stream is walked through exactly where it is good packets whose lines fit. -/
theorem decodeStream_done_iff {c : Config} {bs out : List Byte} :
    decodeStream c bs = .done out ↔
      ∃ payloads lines, GoodPackets c payloads lines ∧ bs = packetStream c.toFormat payloads ∧ out = lines.flatten ∧
        out.length ≤ c.maxBytes := by
  constructor
  · intro h
    have hfits : (decodeStream c bs).Good c := decodeFrom_good _ _ _ _ _ (Nat.zero_le _)
    rw [h] at hfits
    obtain ⟨payloads, lines, hgood, hbs, hout⟩ := decodeFrom_done Nat.le.refl h
    exact ⟨payloads, lines, hgood, hbs, hout, hfits⟩
  · rintro ⟨payloads, lines, hgood, rfl, rfl, hfits⟩
    obtain ⟨fuel, hfuel⟩ := Nat.exists_eq_add_of_le' (length_le_packetStream c.toFormat payloads)
    have hwalk := decodeFrom_packetStream hgood fuel [] 0 (out := []) (by rwa [List.length_nil, Nat.zero_add])
    rwa [List.append_nil, ← hfuel, decodeFrom_nil, List.nil_append] at hwalk

/-- DECODE ends with a success and `OUT = out` exactly where its walk comes to the end of the stream with `out`. -/
theorem exec_decode_success_iff {s : State} {out : List Byte} :
    (∃ t, exec .decode s = .next t ∧ t.result = ⟨.ok, 0, 0⟩ ∧ t.out = Memory.ofBytes out ∧ t.activity = .idle) ↔
      decodeStream s.cfg s.inp.bytes = .done out := by
  constructor
  · rintro ⟨t, hgo, hresult, hout, -⟩
    obtain ⟨out', hd, rfl⟩ | ⟨c, pos, aux, hd, rfl⟩ := execDecode_next hgo
    · have hbytes := congrArg Memory.bytes hout
      rw [endDecode_out, Memory.bytes_ofBytes, Memory.bytes_ofBytes] at hbytes
      rw [hd, hbytes]
    · have hcause : (decodeStream s.cfg s.inp.bytes).Good s.cfg := decodeFrom_good _ _ _ _ _ (Nat.zero_le _)
      rw [hd] at hcause
      rw [raiseFraming_result] at hresult
      exact absurd (congrArg Result.code hresult) hcause
  · intro h
    exact ⟨_, by rw [exec_decode, h, streamAnswer], rfl, endDecode_out _, rfl⟩

/-- Settles O27: a success is a walk to the end of the stream, and the walk gets there exactly over good packets. -/
theorem decodeAcceptsExactlyTheGoodStreams : Obligations.DecodeAcceptsExactlyTheGoodStreams := fun _ _ =>
  exec_decode_success_iff.trans decodeStream_done_iff

end Sys2Proof.Machine

end

/-! ## 40_encode.md: the groups PACK cuts a line into -/

section

namespace Sys2Proof.Machine

open Sys2Proof

/-! ### Runs and literal groups (R76) -/

theorem runLength_le (b : Byte) (cap : Nat) (xs : List Byte) : runLength b cap xs ≤ cap := by
  induction cap generalizing xs with
  | zero => exact Nat.le.refl
  | succ cap ih =>
    cases xs with
    | nil => exact Nat.zero_le _
    | cons x xs =>
      rw [runLength]
      split
      · exact Nat.succ_le_succ (ih xs)
      · exact Nat.zero_le _

/-- The bytes of a run are equal, and the rest of the line is behind them. -/
theorem replicate_runLength_append_drop (b : Byte) (cap : Nat) (xs : List Byte) :
    List.replicate (runLength b cap xs) b ++ xs.drop (runLength b cap xs) = xs := by
  induction cap generalizing xs with
  | zero => rfl
  | succ cap ih =>
    cases xs with
    | nil => rfl
    | cons x xs =>
      rw [runLength]
      split
      · next h => rw [List.replicate_succ, List.drop_succ_cons, List.cons_append, ih, h]
      · rfl

theorem literalLength_le (cap : Nat) (xs : List Byte) : literalLength cap xs ≤ cap ∧ literalLength cap xs ≤ xs.length := by
  induction cap, xs using literalLength.induct with
  | case1 | case2 | case3 | case4 => simp [literalLength]
  | case5 cap x y ys h ih =>
    rw [literalLength, if_neg h, List.length_cons]
    exact ⟨Nat.succ_le_succ ih.1, Nat.succ_le_succ ih.2⟩

/-- The line begins with two equal bytes, so that R76 emits a run. -/
def StartsWithRun (line : List Byte) : Prop := ∃ b rest, line = b :: b :: rest

theorem startsWithRun_cons_iff (b : Byte) (tl : List Byte) : StartsWithRun (b :: tl) ↔ 1 ≤ runLength b 127 tl := by
  cases tl with
  | nil => simp [StartsWithRun, runLength]
  | cons x xs =>
    rw [runLength]
    split
    · next h => simp [StartsWithRun, h]
    · next h => simp [StartsWithRun, h]

/-- Why a literal group ends: it is full, the line is at its end, or a run begins. -/
theorem literalLength_stop (cap : Nat) (xs : List Byte) :
    literalLength cap xs = cap ∨ xs.drop (literalLength cap xs) = [] ∨
      StartsWithRun (xs.drop (literalLength cap xs)) := by
  induction cap, xs using literalLength.induct with
  | case1 => exact .inl rfl
  | case2 => exact .inr (.inl rfl)
  | case3 => exact .inr (.inl rfl)
  | case4 cap x ys => exact .inr (.inr ⟨x, ys, by simp [literalLength]⟩)
  | case5 cap x y ys h ih =>
    rw [literalLength, if_neg h, List.drop_succ_cons]
    exact ih.imp_left (congrArg (· + 1))

/-! ### The groups of a line -/

/-- `payload` is `line` cut into R76's groups: a run wherever two equal bytes stand in front, else a literal group that
ends only where it is full, at the end of the line, or before a run. -/
inductive PackedAs : List Byte → List Byte → Prop where
  | nil : PackedAs [] []
  | run {count : Nat} (b : Byte) {line payload : List Byte} (two_le : 2 ≤ count) (le : count ≤ 128)
      (packed : PackedAs line payload) : PackedAs (List.replicate count b ++ line) (emitRep count b ++ payload)
  | literal {data line payload : List Byte} (one_le : 1 ≤ data.length) (le : data.length ≤ 128)
      (no_run : ¬ StartsWithRun (data ++ line)) (stop : data.length = 128 ∨ line = [] ∨ StartsWithRun line)
      (packed : PackedAs line payload) : PackedAs (data ++ line) (emitLit data ++ payload)

theorem packFrom_packedAs {fuel : Nat} {line : List Byte} (h : line.length ≤ fuel) :
    PackedAs line (packFrom fuel line) := by
  induction fuel generalizing line with
  | zero =>
    rw [List.eq_nil_of_length_eq_zero (Nat.le_zero.mp h)]
    exact .nil
  | succ fuel ih =>
    cases line with
    | nil => exact .nil
    | cons b tl =>
      have hrest (n : Nat) : PackedAs (tl.drop n) (packFrom fuel (tl.drop n)) := ih (by simp at *; omega)
      rw [packFrom]
      split
      · next hrun =>
        have hle := runLength_le b 127 tl
        have hline : List.replicate (runLength b 127 tl + 1) b ++ tl.drop (runLength b 127 tl) = b :: tl :=
          congrArg (b :: ·) (replicate_runLength_append_drop b 127 tl)
        have hpacked := (hrest (runLength b 127 tl)).run b (count := runLength b 127 tl + 1) (by omega) (by omega)
        rwa [hline] at hpacked
      · next hrun =>
        obtain ⟨hcap, hlen⟩ := literalLength_le 127 tl
        have htake : (b :: tl.take (literalLength 127 tl)).length = literalLength 127 tl + 1 := by
          rw [List.length_cons, List.length_take_of_le hlen]
        have hline : b :: tl.take (literalLength 127 tl) ++ tl.drop (literalLength 127 tl) = b :: tl :=
          congrArg (b :: ·) (List.take_append_drop _ tl)
        have hno : ¬ StartsWithRun (b :: tl) := mt (startsWithRun_cons_iff b tl).mp hrun
        have hpacked := (hrest (literalLength 127 tl)).literal (data := b :: tl.take (literalLength 127 tl)) (by omega)
          (by omega) (hline ▸ hno) ((literalLength_stop 127 tl).imp_left (by omega))
        rwa [hline] at hpacked

theorem pack_packedAs (line : List Byte) : PackedAs line (pack line) := packFrom_packedAs Nat.le.refl

end Sys2Proof.Machine

end

/-! ## 40_encode.md: UNPACK inverts PACK -/

section

namespace Sys2Proof.Machine

open Sys2Proof

/-- R89's loop goes through the tokens of a packed line and writes the line behind what it has written. -/
theorem PackedAs.unpackFrom_eq {line payload : List Byte} (h : PackedAs line payload) {fuel : Nat}
    (hfuel : payload.length ≤ fuel) (q : Nat) (u : List Byte) :
    unpackFrom fuel payload q u = .ok (u ++ line) := by
  induction h generalizing fuel q u with
  | nil =>
    rw [List.append_nil]
    cases fuel <;> rfl
  | run b hlo hhi _ ih =>
    rw [List.length_append, emitRep_length] at hfuel
    obtain ⟨fuel, rfl⟩ := Nat.exists_eq_add_of_le' (show 1 ≤ fuel by omega)
    simp only [unpackFrom, readToken_emitRep b _ hlo hhi]
    rw [ih (by omega), List.append_assoc]
  | literal hpos hle _ _ _ ih =>
    rw [List.length_append, emitLit_length] at hfuel
    obtain ⟨fuel, rfl⟩ := Nat.exists_eq_add_of_le' (show 1 ≤ fuel by omega)
    simp only [unpackFrom, readToken_emitLit _ hpos hle]
    rw [ih (by omega), List.append_assoc]

/-- Settles O20: UNPACK reads each group that PACK wrote, and writes its bytes. -/
theorem unpackInvertsPack : Obligations.UnpackInvertsPack := fun line =>
  (pack_packedAs line).unpackFrom_eq Nat.le.refl 0 []

end Sys2Proof.Machine

end

/-! ## 40_encode.md: the tokens and the length of a payload -/

section

namespace Sys2Proof.Machine

open Sys2Proof

/-- Settles O21: the tokens are those of the groups. -/
theorem packEmitsLiteralsAndRuns : Obligations.PackEmitsLiteralsAndRuns := by
  intro line
  have hpacked := pack_packedAs line
  generalize pack line = payload at hpacked
  induction hpacked with
  | nil => exact ⟨[], nofun, rfl, rfl⟩
  | @run count b line payload hlo hhi _ ih =>
    obtain ⟨tokens, hranges, rfl, rfl⟩ := ih
    exact ⟨(emitRep count b, List.replicate count b) :: tokens,
      List.forall_mem_cons.mpr ⟨.inr ⟨count, b, hlo, hhi, rfl⟩, hranges⟩, rfl, rfl⟩
  | @literal data line payload hpos hle _ _ _ ih =>
    obtain ⟨tokens, hranges, rfl, rfl⟩ := ih
    exact ⟨(emitLit data, data) :: tokens, List.forall_mem_cons.mpr ⟨.inl ⟨data, hpos, hle, rfl⟩, hranges⟩, rfl, rfl⟩

theorem PackedAs.two_le_length {line payload : List Byte} (h : PackedAs line payload) (hline : 1 ≤ line.length) :
    2 ≤ payload.length := by
  cases h with
  | nil => cases hline
  | run b => rw [List.length_append, emitRep_length]; omega
  | literal hpos => rw [List.length_append, emitLit_length]; omega

theorem PackedAs.length_le_double {line payload : List Byte} (h : PackedAs line payload) :
    payload.length ≤ 2 * line.length := by
  induction h with
  | nil => exact Nat.le.refl
  | run b => rw [List.length_append, List.length_append, List.length_replicate, emitRep_length]; omega
  | literal => rw [List.length_append, List.length_append, emitLit_length]; omega

/-- No literal group of a short line is full with bytes behind it, so between two literal groups stands a run of two
bytes or more; a line that begins with a run has one literal group less. -/
theorem PackedAs.length_le_of_short {line payload : List Byte} (h : PackedAs line payload)
    (hshort : line.length ≤ 128) :
    payload.length ≤ line.length + (line.length + 2) / 3 ∧
      (StartsWithRun line → payload.length ≤ line.length + line.length / 3) := by
  induction h with
  | nil => exact ⟨Nat.le.refl, fun _ => Nat.le.refl⟩
  | run b hlo hhi _ ih =>
    simp only [List.length_append, List.length_replicate, emitRep_length] at hshort ⊢
    obtain ⟨hrest, -⟩ := ih (by omega)
    omega
  | @literal data line payload hpos hle hno hstop hp ih =>
    simp only [List.length_append, emitLit_length] at hshort ⊢
    obtain ⟨-, hrest⟩ := ih (by omega)
    have hpayload : payload.length ≤ line.length + line.length / 3 := by
      obtain hfull | hnil | hrun := hstop
      · have := hp.length_le_double
        omega
      · have := hp.length_le_double
        rw [hnil, List.length_nil] at *
        omega
      · exact hrest hrun
    exact ⟨by omega, fun hrun => absurd hrun hno⟩

theorem pack_length_bounds {line : List Byte} (h : 1 ≤ line.length) :
    2 ≤ (pack line).length ∧ (pack line).length ≤ 2 * line.length :=
  ⟨(pack_packedAs line).two_le_length h, (pack_packedAs line).length_le_double⟩

/-- Settles O23: every group takes at most one byte more than it stands for, and its token two bytes at least. -/
theorem packedLengthIsBounded : Obligations.PackedLengthIsBounded := fun line h =>
  ⟨(pack_length_bounds h).1, (pack_length_bounds h).2, fun hshort => ((pack_packedAs line).length_le_of_short hshort).1⟩

end Sys2Proof.Machine

end

/-! ## 40_encode.md: PACK is the spec's loop -/

section

namespace Sys2Proof.Machine

open Sys2Proof

/-- Below the line's length an offset has a byte, with the rest of the line behind it. -/
theorem drop_eq_lineByte_cons {line : List Byte} {i : Nat} (h : i < line.length) :
    line.drop i = lineByte line i :: line.drop (i + 1) := by
  rw [lineByte, List.getD_eq_getElem line 0x00#8 h, List.drop_eq_getElem_cons h]

/-- R76's loop over `r` counts on along the run, up to 128. -/
theorem runLoop_eq {line : List Byte} {i r cap : Nat} (h : r + cap = 128) :
    runLoop line i (cap + 1) r = r + runLength (lineByte line i) cap (line.drop (i + r)) := by
  induction cap generalizing r with
  | zero =>
    rw [runLoop, if_neg (by omega)]
    rfl
  | succ cap ih =>
    rw [runLoop]
    by_cases hin : i + r < line.length
    · rw [drop_eq_lineByte_cons hin, runLength]
      by_cases heq : lineByte line (i + r) = lineByte line i
      · rw [if_pos ⟨hin, by omega, heq⟩, if_pos heq, ih (by omega), Nat.add_assoc i r 1]
        omega
      · rw [if_neg (fun hc => heq hc.2.2), if_neg heq, Nat.add_zero]
    · rw [if_neg (fun hc => hin hc.1), List.drop_eq_nil_of_le (Nat.le_of_not_lt hin)]
      rfl

/-- R76's loop over `j` goes on along the literal group, up to 128 bytes from `i`. -/
theorem literalLoop_eq {line : List Byte} {i j cap : Nat} (h : j + cap = i + 128) :
    literalLoop line i (cap + 1) j = j + literalLength cap (line.drop j) := by
  induction cap generalizing j with
  | zero =>
    rw [literalLoop, if_neg (by omega), literalLength]
    rfl
  | succ cap ih =>
    rw [literalLoop]
    by_cases hin : j < line.length
    · have hnext := ih (j := j + 1) (by omega)
      rw [drop_eq_lineByte_cons hin]
      by_cases hin' : j + 1 < line.length
      · rw [drop_eq_lineByte_cons hin'] at hnext ⊢
        rw [literalLength]
        by_cases heq : lineByte line j = lineByte line (j + 1)
        · rw [if_neg (fun hc => hc.2.2 ⟨hin', heq.symm⟩), if_pos heq, Nat.add_zero]
        · rw [if_pos ⟨hin, by omega, fun hc => heq hc.2.symm⟩, if_neg heq, hnext]
          omega
      · rw [List.drop_eq_nil_of_le (Nat.le_of_not_lt hin')] at hnext ⊢
        rw [if_pos ⟨hin, by omega, fun hc => hin' hc.1⟩, hnext, literalLength]
        cases cap <;> rfl
    · rw [if_neg (fun hc => hin hc.1), List.drop_eq_nil_of_le (Nat.le_of_not_lt hin)]
      rfl

/-- R76's outer loop at offset `i` packs the rest of the line behind what it has emitted. -/
theorem packLoop_eq (line : List Byte) (fuel i : Nat) (p : List Byte) :
    packLoop line fuel i p = p ++ packFrom fuel (line.drop i) := by
  induction fuel generalizing i p with
  | zero => exact (List.append_nil p).symm
  | succ fuel ih =>
    rw [packLoop]
    by_cases hin : i < line.length
    · have hrun := runLoop_eq (line := line) (i := i) (show 1 + 127 = 128 from rfl)
      have hlit := literalLoop_eq (line := line) (i := i) (show i + 1 + 127 = i + 128 by omega)
      rw [if_pos hin, hrun, hlit, ih, ih, drop_eq_lineByte_cons hin, packFrom]
      by_cases hr : 1 ≤ runLength (lineByte line i) 127 (line.drop (i + 1))
      · rw [if_pos (by omega), if_pos hr, List.drop_drop, List.append_assoc, emitRep, Nat.add_comm 1, Nat.add_assoc i 1,
          Nat.add_comm 1]
      · obtain ⟨-, hlen⟩ := literalLength_le 127 (line.drop (i + 1))
        generalize literalLength 127 (line.drop (i + 1)) = n at hlen ⊢
        rw [if_neg (by omega), if_neg hr, emitLit, List.length_cons, List.length_take_of_le hlen, List.drop_drop,
          show i + 1 + n - i - 1 = n by omega, show i + 1 + n - i = n + 1 by omega, List.take_succ_cons,
          Nat.add_sub_cancel, List.append_assoc, List.append_assoc]
        rfl
    · rw [if_neg hin, List.drop_eq_nil_of_le (Nat.le_of_not_lt hin)]
      exact (List.append_nil p).symm

/-- Settles O22: from offset 0 the loop packs the whole line. -/
theorem packIsThePseudocode : Obligations.PackIsThePseudocode := fun line =>
  (packLoop_eq line line.length 0 []).symm

end Sys2Proof.Machine

end

/-! ## 40_encode.md: the packets of a bitmap -/

section

namespace Sys2Proof.Machine

open Sys2Proof

/-- R72: the raster lines of a bitmap, in order. -/
def rasterLines (c : Config) (m : Memory) : List (List Byte) :=
  (List.range (lineCount c m.length)).map (rasterLine c m)

@[simp] theorem rasterLines_length (c : Config) (m : Memory) : (rasterLines c m).length = m.length / c.L := by
  rw [rasterLines, List.length_map, List.length_range, lineCount]

/-- R70, R72: ENCODE's stream is the packets of the packed raster lines. -/
theorem encodeStream_eq_packetStream (c : Config) (m : Memory) :
    encodeStream c m = packetStream c.toFormat ((rasterLines c m).map pack) := by
  rw [encodeStream, packetStream, rasterLines, List.map_map, List.flatMap_map]
  rfl

/-- A raster line is `L` bytes. -/
theorem length_of_mem_rasterLines {c : Config} {m : Memory} {line : List Byte} (h : line ∈ rasterLines c m) :
    line.length = c.L := by
  obtain ⟨k, hk, rfl⟩ := List.mem_map.mp h
  have hle : (k + 1) * c.L ≤ m.length := (Nat.mul_le_mul_right _ (List.mem_range.mp hk)).trans (Nat.div_mul_le_self _ _)
  rw [Nat.succ_mul] at hle
  rw [rasterLine, memRead_length]
  omega

/-- A line that lies in the first of two bitmaps is that bitmap's. -/
theorem rasterLine_append_left {c : Config} {a : List Byte} (b : List Byte) {k : Nat} (h : (k + 1) * c.L ≤ a.length) :
    rasterLine c (Memory.ofBytes (a ++ b)) k = rasterLine c (Memory.ofBytes a) k := by
  rw [Nat.succ_mul] at h
  rw [rasterLine, rasterLine, memRead, memRead, Memory.bytes_ofBytes, Memory.bytes_ofBytes,
    List.drop_append_of_le_length (by omega), List.take_append_of_le_length (by rw [List.length_drop]; omega)]

/-- Behind a bitmap of `n` lines stand the lines of the second bitmap. -/
theorem rasterLine_append_right {c : Config} {a : List Byte} (b : List Byte) {n : Nat} (k : Nat)
    (h : a.length = n * c.L) : rasterLine c (Memory.ofBytes (a ++ b)) (n + k) = rasterLine c (Memory.ofBytes b) k := by
  rw [rasterLine, rasterLine, memRead, memRead, Memory.bytes_ofBytes, Memory.bytes_ofBytes, Nat.add_mul, ← h,
    ← List.drop_drop, List.drop_left]

/-- The raster lines of a bitmap of whole lines with another bitmap behind it. -/
theorem rasterLines_append {c : Config} {a : List Byte} (b : List Byte) (hL : 1 ≤ c.L) (ha : a.length % c.L = 0) :
    rasterLines c (Memory.ofBytes (a ++ b)) = rasterLines c (Memory.ofBytes a) ++ rasterLines c (Memory.ofBytes b) := by
  obtain ⟨n, hn⟩ := Nat.dvd_of_mod_eq_zero ha
  rw [Nat.mul_comm] at hn
  have hfirst : a.length / c.L = n := by rw [hn, Nat.mul_div_cancel n hL]
  have hcount : (a.length + b.length) / c.L = n + b.length / c.L := by
    rw [hn, Nat.add_comm, Nat.add_mul_div_right _ _ hL, Nat.add_comm]
  simp only [rasterLines, lineCount, Memory.length_ofBytes, List.length_append, hcount, hfirst, List.range_add,
    List.map_append, List.map_map]
  congr 1
  · exact List.map_congr_left fun k hk =>
      rasterLine_append_left b (hn ▸ Nat.mul_le_mul_right c.L (List.mem_range.mp hk))
  · exact List.map_congr_left fun k _ => rasterLine_append_right b k hn

/-- The length of packets whose payloads have between `lo` and `hi` bytes each. -/
theorem packetStream_length_bounds (p : Format) {payloads : List (List Byte)} {lo hi : Nat}
    (h : ∀ payload ∈ payloads, lo ≤ payload.length ∧ payload.length ≤ hi) :
    (p.headerLen + lo) * payloads.length ≤ (packetStream p payloads).length ∧
      (packetStream p payloads).length ≤ (p.headerLen + hi) * payloads.length := by
  induction payloads with
  | nil => exact ⟨Nat.le.refl, Nat.le.refl⟩
  | cons payload payloads ih =>
    obtain ⟨⟨hlo, hhi⟩, htail⟩ := List.forall_mem_cons.mp h
    obtain ⟨ihlo, ihhi⟩ := ih htail
    rw [packetStream_cons, List.length_append, wrapPacket_length, List.length_cons, Nat.mul_succ, Nat.mul_succ,
      Format.headerLen] at *
    omega

/-- Settles O24: the raster lines of the two bitmaps are packed one by one. -/
theorem encodeIsLineByLine : Obligations.EncodeIsLineByLine := by
  intro c a b hL ha
  simp only [encodeStream_eq_packetStream, rasterLines_append b hL ha, List.map_append]
  exact List.flatMap_append

end Sys2Proof.Machine

end

/-! ## 40_encode.md: ENCODE -/

section

namespace Sys2Proof.Machine

open Sys2Proof

/-! ### What ENCODE answers (R70, R71, U5) -/

theorem exec_encode_partialLine {s : State} (h : s.inp.length % s.cfg.L ≠ 0) :
    exec .encode s = .next (forgetLine
      (raise .partialLine (lineCount s.cfg s.inp.length * s.cfg.L) (s.inp.length % s.cfg.L) s)) :=
  if_pos h

theorem exec_encode_tooLong {s : State} (h : s.inp.length % s.cfg.L = 0)
    (hlong : s.cfg.maxBytes < (encodeStream s.cfg s.inp).length) : exec .encode s = .refused .outputTooLong :=
  (if_neg (not_not.mpr h)).trans (if_pos hlong)

theorem exec_encode_success {s : State} (h : s.inp.length % s.cfg.L = 0)
    (hfits : (encodeStream s.cfg s.inp).length ≤ s.cfg.maxBytes) :
    exec .encode s = .next
      (forgetLine (finish Result.success { s with out := Memory.ofBytes (encodeStream s.cfg s.inp) })) :=
  (if_neg (not_not.mpr h)).trans (if_neg (Nat.not_lt.mpr hfits))

/-- Settles O17: the stream of the statement is `encodeStream`, and what changes beside is `finish` and `forgetLine`. -/
theorem encodeEmitsOnePacketPerLine : Obligations.EncodeEmitsOnePacketPerLine := by
  intro s out hwhole hout hfits
  have hstream : out = encodeStream s.cfg s.inp := hout
  rw [hstream] at hfits ⊢
  exact ⟨_, _, _, exec_encode_success hwhole hfits⟩

/-- Settles O18: the error is raised before anything is emitted. -/
theorem encodeRejectsAPartialLine : Obligations.EncodeRejectsAPartialLine := fun _ h =>
  ⟨_, exec_encode_partialLine h, rfl, rfl, rfl, rfl, rfl, rfl, rfl⟩

/-- Settles O19: of the three branches only the too long output has no next state. -/
theorem encodeStopsOnlyWhenTheOutputIsTooLong : Obligations.EncodeStopsOnlyWhenTheOutputIsTooLong := by
  intro s
  have hstops : (∀ t, exec .encode s ≠ .next t) →
      s.inp.length % s.cfg.L = 0 ∧ s.cfg.maxBytes < (encodeStream s.cfg s.inp).length := by
    intro h
    have hwhole : s.inp.length % s.cfg.L = 0 := by_contra fun hp => h _ (exec_encode_partialLine hp)
    exact ⟨hwhole, Nat.lt_of_not_le fun hfits => h _ (exec_encode_success hwhole hfits)⟩
  have hrefused : s.inp.length % s.cfg.L = 0 ∧ s.cfg.maxBytes < (encodeStream s.cfg s.inp).length →
      exec .encode s = .refused .outputTooLong := fun ⟨hwhole, hlong⟩ => exec_encode_tooLong hwhole hlong
  exact ⟨hrefused ∘ hstops, hstops, fun h t ht => nomatch (hrefused h).symm.trans ht⟩

/-- Settles O25: a success has one packet a line, and the bounds of PACK hold for each. -/
theorem encodedLengthIsBounded : Obligations.EncodedLengthIsBounded := by
  intro s t hL hgo hok
  obtain ⟨-, rfl⟩ | ⟨-, -, rfl⟩ := execEncode_next hgo
  · cases hok
  · have hbounds := packetStream_length_bounds s.cfg.toFormat (payloads := (rasterLines s.cfg s.inp).map pack) (lo := 2)
      (hi := 2 * s.cfg.L) (List.forall_mem_map.mpr fun line hline => by
        have hlen := length_of_mem_rasterLines hline
        exact hlen ▸ pack_length_bounds (hlen ▸ hL))
    rw [← encodeStream_eq_packetStream, List.length_map, rasterLines_length] at hbounds
    rw [forgetLine_out, finish_out, Memory.length_ofBytes]
    exact ⟨hbounds.1, hbounds.2, rfl⟩

end Sys2Proof.Machine

end

/-! ## 40_encode.md: the raster-line count of the media format -/

section

namespace Sys2Proof.Machine

open Sys2Proof

/-- R130: the count is read behind the items in front of it. -/
theorem announcedLines_append {front : List Byte} (lo hi : Byte) (rest : List Byte)
    (h : front.length = lineCountOffset) : announcedLines (front ++ lo :: hi :: rest) = some (le16 lo hi) := by
  rw [announcedLines, List.drop_left' h]

theorem announcedLines_mediaOperands (c : Config) (mf : MediaFormat) (len : Nat) :
    announcedLines (mediaOperands c mf len) = some (le16 (lo8 (lineCount c len)) (hi8 (lineCount c len))) := by
  rw [mediaOperands, lineCountBytes, List.append_assoc _ _ (List.map _ _)]
  exact announcedLines_append _ _ _ (by simp [lineCountOffset, Nat.add_assoc])

/-- Two bytes hold a number below 65536. -/
theorem le16_lo8_hi8 {v : Nat} (h : v ≤ 65535) : le16 (lo8 v) (hi8 v) = v := by
  rw [le16, lo8_toNat, hi8_toNat]
  omega

theorem jobMoves_eq_none_iff {c : Config} {mode : Byte} {mf : MediaFormat} {pc : PrintConfig} {bitmap : List Byte} :
    jobMoves c mode mf pc bitmap = none ↔ maxLines < lineCount c bitmap.length := by
  rw [jobMoves]
  split
  · next h => exact iff_of_true rfl h
  · next h => exact iff_of_false nofun h

/-- Settles O58: the two bytes hold the number of raster lines, and each raster line is one packet. -/
theorem lineCountIsThePacketCount : Obligations.LineCountIsThePacketCount := by
  refine fun c m => ⟨fun hle => ⟨_, _, rfl, fun mf => announcedLines_mediaOperands c mf m.length,
    (rasterLines c m).map pack, encodeStream_eq_packetStream c m, ?_⟩, fun _ _ _ _ => jobMoves_eq_none_iff⟩
  rw [List.length_map, rasterLines_length]
  exact (le16_lo8_hi8 hle).symm

end Sys2Proof.Machine

end

/-! ## 41_decode.md: DECODE of what ENCODE emits -/

section

namespace Sys2Proof.Machine

open Sys2Proof

/-- R72: the first `n` raster lines, back to back, are the bitmap up to line `n`. -/
theorem flatten_map_rasterLine (c : Config) (m : Memory) (n : Nat) :
    ((List.range n).map (rasterLine c m)).flatten = m.bytes.take (n * c.L) := by
  induction n with
  | zero => rw [Nat.zero_mul]; rfl
  | succ n ih =>
    rw [List.range_succ, List.map_append, List.flatten_append, ih, Nat.succ_mul, List.take_add, List.map_singleton,
      List.flatten_singleton, rasterLine, memRead]

/-- The raster lines of a bitmap of whole lines are the bitmap. -/
theorem rasterLines_flatten {c : Config} {m : Memory} (h : m.length % c.L = 0) : (rasterLines c m).flatten = m.bytes := by
  rw [rasterLines, flatten_map_rasterLine, lineCount, Nat.div_mul_cancel (Nat.dvd_of_mod_eq_zero h),
    ← Memory.length_bytes, List.take_length]

/-- The packed raster lines of a bitmap are good packets' payloads, as a payload of `2 * L` bytes has a representable
length (R172). -/
theorem goodPackets_rasterLines {c : Config} (m : Memory) (h : 2 * c.L < 256 ^ c.lenBytes) :
    GoodPackets c ((rasterLines c m).map pack) (rasterLines c m) where
  unpacked := by
    rw [List.map_map]
    exact List.map_congr_left fun line _ => unpackInvertsPack line
  short := List.forall_mem_map.mpr fun line hline => by
    have hlen := (pack_packedAs line).length_le_double
    rw [length_of_mem_rasterLines hline] at hlen
    omega
  line_len := fun _ => length_of_mem_rasterLines

/-- R172: within the bounds of the configuration the longest payload of a line has a representable length. -/
theorem payload_lt_of_wf {c : Config} (h : c.wf = true) : 2 * c.L < 256 ^ c.lenBytes := by
  simp only [Config.wf, Bool.and_eq_true, decide_eq_true_eq] at h
  obtain ⟨⟨⟨-, hpayload⟩, -⟩, -⟩ := h
  exact hpayload

/-- R92 (a): the walk through the stream of a bitmap of whole lines gives the bitmap. -/
theorem decodeStream_encodeStream {c : Config} {m : Memory} (hc : c.wf = true) (hwhole : m.length % c.L = 0)
    (hfits : m.length ≤ c.maxBytes) : decodeStream c (encodeStream c m) = .done m.bytes :=
  decodeStream_done_iff.mpr ⟨_, _, goodPackets_rasterLines m (payload_lt_of_wf hc),
    encodeStream_eq_packetStream c m, (rasterLines_flatten hwhole).symm, by rwa [Memory.length_bytes]⟩

/-- Settles O26: a success of ENCODE leaves the stream of a bitmap of whole lines, through which DECODE walks. -/
theorem decodeInvertsEncode : Obligations.DecodeInvertsEncode := by
  intro s t hc hwf hfits hgo hok
  obtain ⟨-, rfl⟩ | ⟨hwhole, -, ht⟩ := execEncode_next hgo
  · cases hok
  · have hwalk : decodeStream t.cfg t.out.bytes = .done s.inp.bytes := by
      rw [ht, forgetLine_cfg, forgetLine_out, finish_out, Memory.bytes_ofBytes]
      exact decodeStream_encodeStream hc hwhole hfits
    obtain ⟨t', hdecode, hresult, hout, -⟩ := (exec_decode_success_iff (s := { t with inp := t.out })).mpr hwalk
    exact ⟨t', hdecode, hresult, hout.trans (Memory.ofBytes_bytes hwf)⟩

end Sys2Proof.Machine

end

/-! ## 41_decode.md: the first bad packet of a stream -/

section

namespace Sys2Proof.Machine

open Sys2Proof

/-! ### Headers that are cut short or announce too much (R87) -/

theorem readPacket_of_short {p : Format} {tl : List Byte} (h : tl.length < p.lenBytes) :
    readPacket p (p.xferOp :: tl) = .truncated (1 + tl.length) := by
  rw [readPacket, if_neg (not_not.mpr rfl), if_pos h]

theorem readPacket_of_overrun {p : Format} {len body : List Byte} (hlen : len.length = p.lenBytes)
    (h : body.length < leNat len) : readPacket p (p.xferOp :: (len ++ body)) = .overrun (leNat len) := by
  have htake : (len ++ body).take p.lenBytes = len := List.take_left' hlen
  have hbody : (len ++ body).length - p.lenBytes = body.length := by
    rw [List.length_append, hlen, Nat.add_sub_cancel_left]
  have hheader : ¬ (len ++ body).length < p.lenBytes := by
    rw [List.length_append, hlen]
    omega
  rw [readPacket, if_neg (not_not.mpr rfl), if_neg hheader, htake, hbody, if_pos h]

/-! ### Payloads that give no line (R88, R89) -/

theorem readLine_of_malformed {c : Config} {payload : List Byte} {q : Nat} (held : Nat)
    (h : unpack payload = .error q) : readLine c held payload = .malformed q := by
  rw [readLine_eq, h, lineOf]

theorem readLine_of_wrongLength {c : Config} {payload u : List Byte} (held : Nat) (h : unpack payload = .ok u)
    (hu : u.length ≠ c.L) : readLine c held payload = .wrongLength u.length := by
  rw [readLine_eq, h, lineOf, checkLine, if_pos hu]

/-! ### In progress -/

/-- R89: a payload that ends inside the token at `q`. -/
theorem step_tokenTruncated {s : State} (hr : s.host.head? ≠ some .reset) (ha : s.activity = .payload)
    (hq : s.q < s.n) (h : readToken (payloadLeft s) = .truncated) :
    step s = .next (raiseFraming .payloadMalformed s.pos s.q s) := by
  have hf : fetch s = some (.token (payloadLeft s)) := by rw [fetch_payload hr ha, if_pos hq]
  have hd : decode s.cfg.toFormat (.token (payloadLeft s)) = .error .tokenTruncated := by simp only [decode, h]
  rw [step_undecoded hf hd, accept_of_activity_ne_idle (by simp [ha])]
  rfl

/-- Settles O9: each of the three cuts is one that the packet's or the token's reader finds. -/
theorem malformedStreamCodeEndsTheDecode : Obligations.MalformedStreamCodeEndsTheDecode := by
  intro s hr
  refine ⟨fun tokens ha => ⟨fun tl hl hshort => ?_, fun len body hl hlen hbody => ?_⟩, fun ha hq htoken => ?_⟩
  · have hread : readPacket s.cfg.toFormat (streamLeft s) = .truncated (1 + tl.length) := by
      rw [streamLeft, hl, readPacket_of_short hshort]
    exact ⟨_, step_headerTruncated hr ha hread, rfl, rfl, rfl⟩
  · have hread : readPacket s.cfg.toFormat (streamLeft s) = .overrun (leNat len) := by
      rw [streamLeft, hl, readPacket_of_overrun hlen hbody]
    exact ⟨_, step_lengthOverrun hr ha hread, rfl, rfl, rfl⟩
  · exact ⟨_, step_tokenTruncated hr ha hq htoken, rfl, rfl, rfl⟩

/-! ### Behind good packets (R90, R91) -/

theorem decodeReports_of_decodeStream {s : State} {c : Cause} {pos aux : Nat}
    (h : decodeStream s.cfg s.inp.bytes = .error c pos aux) : DecodeReports s c pos aux :=
  ⟨_, by rw [exec_decode, h, streamAnswer], rfl, rfl, rfl⟩

/-- Behind good packets whose lines fit, the whole walk answers what it answers at the first byte of the rest. -/
theorem decodeStream_packetStream_append {c : Config} {payloads lines : List (List Byte)} {rest : List Byte}
    (h : GoodPackets c payloads lines) (hfits : lines.flatten.length ≤ c.maxBytes) (hrest : rest ≠ []) :
    ∃ fuel, decodeStream c (packetStream c.toFormat payloads ++ rest) =
      decodeFrom c (fuel + 1) rest (packetStream c.toFormat payloads).length lines.flatten := by
  have hcount := length_le_packetStream c.toFormat payloads
  have hpos := List.length_pos_iff.mpr hrest
  have hlen : 1 + payloads.length ≤ (packetStream c.toFormat payloads ++ rest).length := by
    rw [List.length_append]
    omega
  obtain ⟨fuel, hfuel⟩ := Nat.exists_eq_add_of_le' hlen
  refine ⟨fuel, ?_⟩
  rw [decodeStream, hfuel, ← Nat.add_assoc,
    decodeFrom_packetStream h (fuel + 1) rest 0 (by rwa [List.length_nil, Nat.zero_add]),
    Nat.zero_add, List.nil_append]

/-- An error of the walk at the first byte behind good packets whose lines fit is the one that DECODE reports. -/
theorem decodeReports_behind {s : State} {payloads lines : List (List Byte)} {rest : List Byte} {c : Cause} {aux : Nat}
    (h : GoodPackets s.cfg payloads lines) (hfits : lines.flatten.length ≤ s.cfg.maxBytes)
    (hbytes : s.inp.bytes = packetStream s.cfg.toFormat payloads ++ rest)
    (herr : ∀ fuel pos out, decodeFrom s.cfg (fuel + 1) rest pos out = .error c pos aux) :
    DecodeReports s c (packetStream s.cfg.toFormat payloads).length aux := by
  have hrest : rest ≠ [] := by
    rintro rfl
    exact nomatch (decodeFrom_nil s.cfg 1 0 []).symm.trans (herr 0 0 [])
  obtain ⟨fuel, hwalk⟩ := decodeStream_packetStream_append h hfits hrest
  exact decodeReports_of_decodeStream (by rw [hbytes, hwalk, herr])

/-- Settles O28: the byte is no opcode, wherever a packet must start. -/
theorem unexpectedOpcodeRaises : Obligations.UnexpectedOpcodeRaises := by
  intro s b hb
  refine ⟨⟨_, rfl, rfl, rfl, rfl, rfl, rfl, rfl, rfl⟩, fun payloads lines rest h hfits hbytes => ?_⟩
  exact decodeReports_behind h hfits hbytes fun fuel pos out => by
    simp only [decodeFrom, readPacket_of_ne rest hb]

/-- Settles O29: the walk finds each fault at the packet's first byte, in the order of its checks. -/
theorem decodeReportsTheFirstBadPacket : Obligations.DecodeReportsTheFirstBadPacket := by
  rintro s payloads lines _ h hfits rfl
  refine ⟨fun tl hbytes hshort => ?_, fun len body hbytes hlen hbody => ?_, fun p q rest hp hbytes hu => ?_,
    fun p u rest hp hbytes hu hlen => ?_⟩
  · exact decodeReports_behind h hfits hbytes fun fuel pos out => by
      simp only [decodeFrom, readPacket_of_short hshort]
  · exact decodeReports_behind h hfits hbytes fun fuel pos out => by
      simp only [decodeFrom, readPacket_of_overrun hlen hbody]
  · rw [List.append_assoc] at hbytes
    exact decodeReports_behind h hfits hbytes fun fuel pos out => by
      simp only [decodeFrom, readPacket_wrapPacket _ p rest hp, readLine_of_malformed _ hu]
  · rw [List.append_assoc] at hbytes
    exact decodeReports_behind h hfits hbytes fun fuel pos out => by
      simp only [decodeFrom, readPacket_wrapPacket _ p rest hp, readLine_of_wrongLength _ hu hlen]

/-! ### A DECODE repeated (R92 (b)) -/

/-- Settles O30: a DECODE keeps what it depends on, the configuration and `IN`. -/
theorem decodingTwiceIsTheSame : Obligations.DecodingTwiceIsTheSame := by
  have hkeeps {s t : State} (h : exec .decode s = .next t) : t.cfg = s.cfg ∧ t.inp = s.inp := by
    obtain ⟨out, -, rfl⟩ | ⟨c, pos, aux, -, rfl⟩ := execDecode_next h <;> exact ⟨rfl, rfl⟩
  intro s t h
  obtain ⟨hcfg, hinp⟩ := hkeeps h
  obtain ⟨t', h', hout, hresult, -⟩ := (operationsDependOnTheInputAlone _ s t (.inr (.inl rfl)) hcfg hinp).1 t h
  exact ⟨hinp, t', h', hout, hresult, (hkeeps h').2.trans hinp⟩

end Sys2Proof.Machine

end

/-! ## 41_decode.md: UNPACK is the spec's loop -/

section

namespace Sys2Proof.Machine

open Sys2Proof

/-- R89's loop at offset `q` unpacks the rest of the payload. -/
theorem unpackLoop_eq (p : List Byte) (fuel q : Nat) (u : List Byte) :
    unpackLoop p fuel q u = unpackFrom fuel (p.drop q) q u := by
  induction fuel generalizing q u with
  | zero => rfl
  | succ fuel ih =>
    rw [unpackLoop, unpackFrom]
    by_cases hin : q < p.length
    · have hleft : (p.drop (q + 1)).length = p.length - (q + 1) := List.length_drop
      rw [if_pos hin, drop_eq_lineByte_cons hin]
      by_cases hlit : (lineByte p q).toNat ≤ 0x7F
      · rw [if_pos hlit]
        by_cases hcut : q + 1 + ((lineByte p q).toNat + 1) > p.length
        · rw [if_pos hcut]
          simp only [readToken, if_pos hlit, if_pos (show (p.drop (q + 1)).length < (lineByte p q).toNat + 1 by omega)]
        · have hwhole : (lineByte p q).toNat + 1 ≤ (p.drop (q + 1)).length := by omega
          rw [if_neg hcut, ih]
          simp only [readToken, if_pos hlit, if_neg (Nat.not_lt.mpr hwhole), List.length_take_of_le hwhole,
            List.drop_drop]
      · rw [if_neg hlit]
        by_cases hnop : lineByte p q = 0x80#8
        · rw [if_pos hnop, ih]
          simp only [readToken, if_neg hlit, if_pos hnop]
        · rw [if_neg hnop]
          by_cases hcut : q + 1 ≥ p.length
          · rw [if_pos hcut, List.drop_eq_nil_of_le hcut]
            simp only [readToken, if_neg hlit, if_neg hnop]
          · rw [if_neg hcut, ih, drop_eq_lineByte_cons (Nat.lt_of_not_le hcut)]
            simp only [readToken, if_neg hlit, if_neg hnop]
    · rw [if_neg hin, List.drop_eq_nil_of_le (Nat.le_of_not_lt hin), readToken]

/-- Settles O32: from offset 0 the loop unpacks the whole payload. -/
theorem unpackIsThePseudocode : Obligations.UnpackIsThePseudocode := fun p => (unpackLoop_eq p p.length 0 []).symm

end Sys2Proof.Machine

end

/-! ## 41_decode.md: XFER and the tokens -/

section

namespace Sys2Proof.Machine

open Sys2Proof

/-! ### What XFER answers (R88, R89) -/

/-- XFER is the end of a packet, whatever its payload comes to. -/
theorem exec_xfer (payload : List Byte) (s : State) :
    exec (.xfer payload) s = packetEffect payload.length (readLine s.cfg s.out.length payload) s := rfl

theorem exec_xfer_malformed {payload : List Byte} {q : Nat} (s : State) (h : unpack payload = .error q) :
    exec (.xfer payload) s = .next (raiseFraming .payloadMalformed s.pos q s) := by
  rw [exec_xfer, readLine_of_malformed _ h, packetEffect]

theorem exec_xfer_wrongLength {payload u : List Byte} {s : State} (h : unpack payload = .ok u)
    (hu : u.length ≠ s.cfg.L) : exec (.xfer payload) s = .next (raiseFraming .lineLength s.pos u.length s) := by
  rw [exec_xfer, readLine_of_wrongLength _ h hu, packetEffect]

theorem exec_xfer_line {payload u : List Byte} {s : State} (h : unpack payload = .ok u) (hu : u.length = s.cfg.L)
    (hroom : s.out.length + s.cfg.L ≤ s.cfg.maxBytes) :
    exec (.xfer payload) s = .next (acceptLine u payload.length s) := by
  rw [exec_xfer, readLine_of_unpack h hu hroom, packetEffect]

/-- Settles O33: the line's length decides, and `acceptLine` writes what the statement lists. -/
theorem xferChecksTheLineLength : Obligations.XferChecksTheLineLength := fun _ _ _ hu =>
  ⟨fun hlen => ⟨_, exec_xfer_wrongLength hu hlen, rfl, rfl, rfl⟩, fun hlen hroom => exec_xfer_line hu hlen hroom⟩

/-- Settles O34: UNPACK's error is raised before the line's length is looked at. -/
theorem xferRejectsAnIncompleteToken : Obligations.XferRejectsAnIncompleteToken := fun s _ _ hu =>
  ⟨_, exec_xfer_malformed s hu, rfl, rfl, rfl, rfl, rfl, rfl⟩

/-- Settles O47: of the three ways XFER can go on only the accepted line keeps the DECODE in progress. -/
theorem xferFrame : Obligations.XferFrame := by
  intro payload s t hwf _ hgo hactive
  obtain ⟨q, -, rfl⟩ | ⟨len, -, rfl⟩ | ⟨u, -, rfl⟩ := packetEffect_next hgo
  · exact absurd rfl hactive
  · exact absurd rfl hactive
  · have hread := read_memAppend hwf u
    refine ⟨fun a ha => ?_, fun a ha => ?_, fun _ => rfl, rfl, rfl, rfl, rfl, rfl, rfl, rfl, rfl, rfl, rfl, rfl, rfl⟩
    · rw [acceptLine_out, hread, if_pos ha]
    · rw [acceptLine_out, acceptLine_line, hread, if_neg (Nat.not_lt.mpr ha)]

/-! ### What the tokens do (R89) -/

/-- Settles O35: each token is its `tokenEffect`; NOP's output is empty. -/
theorem tokensExtendTheOutput : Obligations.TokensExtendTheOutput := by
  refine fun s => ⟨fun data => ?_, fun count b => rfl, ?_⟩
  · rw [Nat.add_assoc]
    rfl
  · rw [exec, execNop, tokenEffect, List.append_nil]

end Sys2Proof.Machine

end

/-! ## 42_status_parse.md: PARSE -/

section

namespace Sys2Proof.Machine

open Sys2Proof

/-! ### What PARSE answers (R100, R101) -/

theorem memRead_all (m : Memory) : memRead m 0 m.length = m.bytes := by
  rw [memRead, List.drop_zero, ← Memory.length_bytes, List.take_length]

theorem exec_parse_of_frameLen {s : State} (h : s.inp.length = s.cfg.frameLen) :
    exec .parse s =
      .next (finish Result.success { s with out := [], sf := some (parseFrame s.cfg s.inp.bytes) }) := by
  rw [exec, execParse, if_neg (not_not_intro h), ← h, memRead_all]

theorem exec_parse_of_ne_frameLen {s : State} (h : s.inp.length ≠ s.cfg.frameLen) :
    exec .parse s = .next (raise .wrongLength 0 s.inp.length { s with sf := none }) := by
  rw [exec, execParse, if_pos h]

/-- The record that a PARSE of a frame leaves in `SF`. -/
theorem sf_of_exec_parse {s t : State} (h : s.inp.length = s.cfg.frameLen) (hgo : exec .parse s = .next t) :
    t.sf = some (parseFrame s.cfg s.inp.bytes) := by
  obtain rfl := next_injective ((exec_parse_of_frameLen h).symm.trans hgo)
  rfl

/-- Settles O40: no frame is made, and `raise` writes what the statement lists. -/
theorem parseRejectsEveryOtherLength : Obligations.ParseRejectsEveryOtherLength :=
  ⟨rfl, rfl, fun _ hlen => exec_parse_of_ne_frameLen hlen⟩

/-! ### The named bytes (R103) -/

theorem frameByte_eq_of_getElem? {raw raw' : List Byte} {i : Nat} (h : raw[i]? = raw'[i]?) :
    frameByte raw i = frameByte raw' i := by
  rw [frameByte, frameByte, List.getD_eq_getElem?_getD, List.getD_eq_getElem?_getD, h]

theorem getElem?_eq_frameByte {raw : List Byte} {i : Nat} (h : i < raw.length) :
    raw[i]? = some (frameByte raw i) := by
  rw [frameByte, List.getD_eq_getElem _ _ h, List.getElem?_eq_getElem h]

/-- The ten offsets one by one. -/
theorem Format.forall_mem_offsets {p : Format} {P : Nat → Prop} :
    (∀ i ∈ p.offsets, P i) ↔
      P p.offBattery ∧ P p.offExtError ∧ P p.offError1 ∧ P p.offError2 ∧ P p.offMediaWidth ∧ P p.offMediaType ∧
        P p.offMediaLength ∧ P p.offStatusType ∧ P p.offPhaseType ∧ P p.offNotification := by
  simp [Format.offsets]

theorem Format.offset_lt_frameLen {p : Format} (hwf : p.wf = true) {i : Nat} (hi : i ∈ p.offsets) :
    i < p.frameLen := by
  obtain ⟨-, hoffsets⟩ := (Bool.and_eq_true_iff).mp hwf
  exact of_decide_eq_true (List.all_eq_true.mp hoffsets i hi)

/-- R9: every named byte of a frame is there to be read. -/
theorem getElem?_offset_of_frame {s : State} (hwf : s.cfg.toFormat.wf = true) (hlen : s.inp.length = s.cfg.frameLen) :
    ∀ i ∈ s.cfg.offsets, s.inp.bytes[i]? = some (frameByte s.inp.bytes i) := fun i hi =>
  getElem?_eq_frameByte (by rw [Memory.length_bytes, hlen]; exact Format.offset_lt_frameLen hwf hi)

/-- Settles O36: the ten fields are the bytes at the ten offsets, and these lie in the frame. -/
theorem parseCopiesTheTenFields : Obligations.ParseCopiesTheTenFields :=
  ⟨⟨rfl, rfl⟩, fun _ hwf hlen => ⟨_, _, exec_parse_of_frameLen hlen, rfl, rfl, rfl,
    Format.forall_mem_offsets.mp (getElem?_offset_of_frame hwf hlen)⟩⟩

/-! ### The header (R102) -/

theorem headersDiffer_iff (c : Config) (raw : List Byte) :
    headersDiffer c raw = true ↔ raw.take c.magicLen ≠ c.magic := bne_iff_ne

/-- `MAGIC` enters a record at `HEADER_MISMATCH` alone. -/
theorem parseFrame_with_magic (c : Config) (other : List Byte) (raw : List Byte) :
    { parseFrame { c with magic := other } raw with headerMismatch := (parseFrame c raw).headerMismatch } =
      parseFrame c raw := rfl

/-- Settles O37: the length alone decides whether PARSE succeeds, under either `MAGIC`. -/
theorem headerMismatchIsAWarning : Obligations.HeaderMismatchIsAWarning := by
  refine ⟨rfl, fun s other hlen => ?_⟩
  have hother : exec .parse { s with cfg := { s.cfg with magic := other } } = _ := exec_parse_of_frameLen hlen
  exact ⟨_, _, _, _, exec_parse_of_frameLen hlen, rfl, rfl, headersDiffer_iff _ _, hother, rfl, rfl,
    parseFrame_with_magic _ _ _⟩

/-! ### The tables of known codes (R104, R105) -/

theorem codes_contains_iff (table : List (Byte × String)) (b : Byte) :
    (table.map Prod.fst).contains b = true ↔ ∃ name, (b, name) ∈ table := by
  simp

theorem isKnownBattery_iff (c : Config) (b : Byte) :
    isKnownBattery c b = true ↔ ∃ name, (b, name) ∈ c.batteryKnown := codes_contains_iff _ b

theorem isKnownStatusType_iff (c : Config) (b : Byte) :
    isKnownStatusType c b = true ↔ ∃ name, (b, name) ∈ c.statusTypeKnown := codes_contains_iff _ b

/-- Settles O38: the record holds the battery's byte itself, and beside it whether the table lists it. -/
theorem batteryValidationKeepsTheByte : Obligations.BatteryValidationKeepsTheByte :=
  ⟨rfl, fun _ hwf hlen => ⟨_, _, _, exec_parse_of_frameLen hlen, rfl, rfl,
    getElem?_offset_of_frame hwf hlen _ (by simp [Format.offsets]), rfl, isKnownBattery_iff _ _⟩⟩

/-- Settles O39: as the battery's byte, so the status type's. -/
theorem statusTypeValidationKeepsTheByte : Obligations.StatusTypeValidationKeepsTheByte :=
  ⟨rfl, fun _ hwf hlen => ⟨_, _, _, exec_parse_of_frameLen hlen, rfl, rfl,
    getElem?_offset_of_frame hwf hlen _ (by simp [Format.offsets]), rfl, isKnownStatusType_iff _ _⟩⟩

/-! ### What a record depends on (R107, R108) -/

/-- A record depends on the header and the ten named bytes alone. -/
theorem parseFrame_congr {c : Config} {raw raw' : List Byte} (hheader : raw.take c.magicLen = raw'.take c.magicLen)
    (hnamed : ∀ i ∈ c.offsets, frameByte raw i = frameByte raw' i) : parseFrame c raw = parseFrame c raw' := by
  obtain ⟨hbattery, hext, he1, he2, hwidth, htype, hlength, hstatus, hphase, hnote⟩ :=
    Format.forall_mem_offsets.mp hnamed
  simp only [parseFrame, headersDiffer, hheader, hbattery, hext, he1, he2, hwidth, htype, hlength, hstatus, hphase,
    hnote]

/-- Frames with the same bytes below `n` have the same first `n` bytes. -/
theorem take_eq_of_getElem? {raw raw' : List Byte} {n : Nat} (h : ∀ i, i < n → raw[i]? = raw'[i]?) :
    raw.take n = raw'.take n := by
  refine List.ext_getElem? fun i => ?_
  rw [List.getElem?_take, List.getElem?_take]
  by_cases hi : i < n
  · rw [if_pos hi, if_pos hi, h i hi]
  · rw [if_neg hi, if_neg hi]

/-- Settles O41: the bytes on which the two frames agree are all that a record depends on. -/
theorem parseIgnoresTheUnnamedBytes : Obligations.ParseIgnoresTheUnnamedBytes := by
  intro s s' t t' hcfg hlen hlen' hagree hgo hgo'
  have hrecords : parseFrame s.cfg s.inp.bytes = parseFrame s.cfg s'.inp.bytes :=
    parseFrame_congr (take_eq_of_getElem? fun i hi => hagree i (.inl hi))
      fun i hi => frameByte_eq_of_getElem? (hagree i (.inr hi))
  rw [sf_of_exec_parse hlen hgo, sf_of_exec_parse (hcfg ▸ hlen') hgo', ← hcfg, hrecords]

/-- Settles O42: a record's class is `classifyFn` of its own error bytes, and CLASSIFY writes that same function. -/
theorem parseAndClassifyAgree : Obligations.ParseAndClassifyAgree := by
  intro s t t' f hlen hgo hf hclassify
  obtain rfl := Option.some.inj ((sf_of_exec_parse hlen hgo).symm.trans hf)
  obtain rfl := next_injective hclassify
  rfl

end Sys2Proof.Machine

end

/-! ## 43_error_classify.md: CLASSIFY -/

section

namespace Sys2Proof.Machine

open Sys2Proof

/-! ### One table (R117) -/

theorem firstFlag_nil (e : Byte) : firstFlag [] e = none := rfl

/-- Flags that do not match are passed over. -/
theorem firstFlag_append_of_unmatched {before : List (Byte × ErrClass)} {e : Byte}
    (h : ∀ f ∈ before, e &&& f.1 = 0#8) (after : List (Byte × ErrClass)) :
    firstFlag (before ++ after) e = firstFlag after e := by
  induction before with
  | nil => rfl
  | cons f rest ih =>
    obtain ⟨hf, hrest⟩ := List.forall_mem_cons.mp h
    rw [List.cons_append, firstFlag, if_neg (not_not_intro hf), ih hrest]

theorem firstFlag_of_unmatched {table : List (Byte × ErrClass)} {e : Byte} (h : ∀ f ∈ table, e &&& f.1 = 0#8) :
    firstFlag table e = none := by
  rw [← List.append_nil table, firstFlag_append_of_unmatched h, firstFlag_nil]

theorem firstFlag_of_first_match {before : List (Byte × ErrClass)} {e mask : Byte}
    (h : ∀ f ∈ before, e &&& f.1 = 0#8) (hmask : e &&& mask ≠ 0#8) (cls : ErrClass) (after : List (Byte × ErrClass)) :
    firstFlag (before ++ (mask, cls) :: after) e = some cls := by
  rw [firstFlag_append_of_unmatched h, firstFlag, if_pos hmask]

/-- A mask of one bit tests that bit. -/
theorem and_twoPow_ne_zero_iff {e : Byte} {i : Nat} (hi : i < 8) :
    e &&& BitVec.twoPow 8 i ≠ 0#8 ↔ e.getLsbD i = true := by
  have hbit : BitVec.twoPow 8 i ≠ 0#8 := fun h => by
    simpa [hi] using congrArg (·.getLsbD i) h
  rw [BitVec.and_twoPow]
  by_cases hset : e.getLsbD i = true
  · rw [if_pos hset]
    exact iff_of_true hbit hset
  · rw [if_neg hset]
    exact iff_of_false (not_not_intro rfl) hset

/-- A flag of one bit decides the class where the bit is set, and leaves it to the rest of the table elsewhere. -/
theorem firstFlag_twoPow_getD {i : Nat} (hi : i < 8) (cls : ErrClass) (rest : List (Byte × ErrClass)) (e : Byte)
    (otherwise : ErrClass) :
    (firstFlag ((BitVec.twoPow 8 i, cls) :: rest) e).getD otherwise =
      if e.getLsbD i then cls else (firstFlag rest e).getD otherwise := by
  rw [firstFlag, apply_ite (Option.getD · otherwise), Option.getD_some]
  exact if_congr (and_twoPow_ne_zero_iff hi) rfl rfl

/-- The rows of `E1_FLAGS` (D12) are the bits 0, 1 and 2. -/
theorem firstFlag_defaultE1Flags_getD (e : Byte) (otherwise : ErrClass) :
    (firstFlag Config.defaultE1Flags e).getD otherwise =
      if e.getLsbD 0 then .noMedia else if e.getLsbD 1 then .endOfMedia else if e.getLsbD 2 then .tapeCutJam
      else otherwise := by
  have hbits : Config.defaultE1Flags =
      [(BitVec.twoPow 8 0, .noMedia), (BitVec.twoPow 8 1, .endOfMedia), (BitVec.twoPow 8 2, .tapeCutJam)] := by decide
  simp only [hbits, firstFlag_twoPow_getD, Nat.reduceLT, firstFlag_nil, Option.getD_none]

/-- The rows of `E2_FLAGS` (D12) are the bits 0 to 4. -/
theorem firstFlag_defaultE2Flags_getD (e : Byte) (otherwise : ErrClass) :
    (firstFlag Config.defaultE2Flags e).getD otherwise =
      if e.getLsbD 0 then .replaceMedia else if e.getLsbD 1 then .bufferFull
      else if e.getLsbD 2 then .transmissionError else if e.getLsbD 3 then .transmissionBufferFull
      else if e.getLsbD 4 then .coverOpen else otherwise := by
  have hbits : Config.defaultE2Flags =
      [(BitVec.twoPow 8 0, .replaceMedia), (BitVec.twoPow 8 1, .bufferFull), (BitVec.twoPow 8 2, .transmissionError),
        (BitVec.twoPow 8 3, .transmissionBufferFull), (BitVec.twoPow 8 4, .coverOpen)] := by decide
  simp only [hbits, firstFlag_twoPow_getD, Nat.reduceLT, firstFlag_nil, Option.getD_none]

/-! ### The two tables and CLASSIFY (R115, R116) -/

theorem classifyFn_eq_getD (c : Config) (e1 e2 : Byte) :
    classifyFn c e1 e2 = (firstFlag c.e1Flags e1).getD ((firstFlag c.e2Flags e2).getD .unknown) := by
  rw [classifyFn]
  cases firstFlag c.e1Flags e1 with
  | some cls => rfl
  | none => cases firstFlag c.e2Flags e2 <;> rfl

/-- Error byte 1 decides, whatever error byte 2 is. -/
theorem classifyFn_of_e1 {c : Config} {e1 : Byte} {cls : ErrClass} (h : firstFlag c.e1Flags e1 = some cls)
    (e2 : Byte) : classifyFn c e1 e2 = cls := by
  rw [classifyFn_eq_getD, h, Option.getD_some]

theorem classifyFn_of_e1_unmatched {c : Config} {e1 : Byte} (h : ∀ f ∈ c.e1Flags, e1 &&& f.1 = 0#8) (e2 : Byte) :
    classifyFn c e1 e2 = (firstFlag c.e2Flags e2).getD .unknown := by
  rw [classifyFn_eq_getD, firstFlag_of_unmatched h, Option.getD_none]

theorem exec_classify (e1 e2 : Byte) (s : State) :
    exec (.classify e1 e2) s =
      .next (finish Result.success { s with out := [], cls := some ⟨classifyFn s.cfg e1 e2, e1, e2⟩ }) := rfl

/-- CLASSIFY succeeds, and leaves the class of `CLASSIFY_FN` and both operand bytes in `CLASS`. -/
theorem exec_classify_of_classifyFn {s : State} {e1 e2 : Byte} {cls : ErrClass} (h : classifyFn s.cfg e1 e2 = cls) :
    ∃ t, exec (.classify e1 e2) s = .next t ∧ t.result = ⟨.ok, 0, 0⟩ ∧ t.cls = some ⟨cls, e1, e2⟩ :=
  ⟨_, exec_classify e1 e2 s, rfl, by rw [finish_cls, h]⟩

/-- Settles O43: the class is the two tables' rows in order, one bit a row. -/
theorem classifyFollowsTheTable : Obligations.ClassifyFollowsTheTable := by
  intro s e1 e2 h1 h2
  rw [exec_classify, classifyFn_eq_getD, h1, h2, firstFlag_defaultE1Flags_getD, firstFlag_defaultE2Flags_getD]
  rfl

/-- The first flag of error byte 1 that matches gives the class, whatever error byte 2 is (R118). -/
theorem exec_classify_of_e1_match {s : State} {e1 mask : Byte} {cls : ErrClass} {before after : List (Byte × ErrClass)}
    (htable : s.cfg.e1Flags = before ++ (mask, cls) :: after) (hbefore : ∀ f ∈ before, e1 &&& f.1 = 0#8)
    (hmask : e1 &&& mask ≠ 0#8) (e2 : Byte) :
    ∃ t, exec (.classify e1 e2) s = .next t ∧ t.cls = some ⟨cls, e1, e2⟩ := by
  have hfirst : firstFlag s.cfg.e1Flags e1 = some cls := by rw [htable, firstFlag_of_first_match hbefore hmask]
  obtain ⟨t, hgo, -, hcls⟩ := exec_classify_of_classifyFn (classifyFn_of_e1 hfirst e2)
  exact ⟨t, hgo, hcls⟩

/-- Settles O44: the tables are searched in order, error byte 2's only where error byte 1 matches nothing; in the
source's example the first row of `E1_FLAGS` matches. -/
theorem classifyPriority : Obligations.ClassifyPriority := by
  refine ⟨fun s e1 e2 _ _ _ _ htable hbefore hmask => exec_classify_of_e1_match htable hbefore hmask e2, ?_,
    fun s htable => exec_classify_of_e1_match (before := []) htable (by simp) (by decide) _⟩
  intro s e1 e2 mask cls before after hnone htable hbefore hmask
  have hclass : classifyFn s.cfg e1 e2 = cls := by
    rw [classifyFn_of_e1_unmatched hnone, htable, firstFlag_of_first_match hbefore hmask, Option.getD_some]
  obtain ⟨t, hgo, -, hcls⟩ := exec_classify_of_classifyFn hclass
  exact ⟨t, hgo, hcls⟩

/-- Settles O45: neither table has a first match, so the class is the default. -/
theorem classifyWithoutAMatchIsUnknown : Obligations.ClassifyWithoutAMatchIsUnknown := by
  intro s e1 e2 h1 h2
  have hclass : classifyFn s.cfg e1 e2 = .unknown := by
    rw [classifyFn_of_e1_unmatched h1, firstFlag_of_unmatched h2, Option.getD_none]
  obtain ⟨t, hgo, hresult, hcls⟩ := exec_classify_of_classifyFn hclass
  exact ⟨t, hgo, hresult, hcls, rfl⟩

end Sys2Proof.Machine

end

/-! ## 44_wire_command_context.md: how a step moves the job -/

section

namespace Sys2Proof.Machine

open Sys2Proof

/-! ### The order of R138 -/

/-- A step that is next is done before the job is closed. -/
theorem stageAt_ne_closed {cursor : Nat} {step : JobStep} (h : expectedStep cursor = some step) :
    stageAt cursor ≠ .closed := by
  have hall : ∀ n < 15, stageAt n ≠ .closed := by decide
  exact hall cursor (cursor_lt_of_expectedStep h)

/-- R138 step 12: only the closing INITIALIZE closes the job. -/
theorem stageAt_succ_ne_closed {cursor : Nat} {step : JobStep} (h : expectedStep cursor = some step)
    (hstep : step ≠ .initPrinter) : stageAt (cursor + 1) ≠ .closed := by
  have hall : ∀ n < 15, stageAt (n + 1) = .closed → expectedStep n = some .initPrinter := by decide
  intro hclosed
  exact hstep (Option.some.inj (h.symm.trans (hall cursor (cursor_lt_of_expectedStep h) hclosed)))

/-- R138: QUERY_STATUS has one place in the order. -/
theorem expectedStep_eq_queryStatus_iff {cursor : Nat} : expectedStep cursor = some .queryStatus ↔ cursor = 2 := by
  have hall : ∀ n < 15, expectedStep n = some .queryStatus → n = 2 := by decide
  exact ⟨fun h => hall cursor (cursor_lt_of_expectedStep h) h, fun h => h ▸ rfl⟩

/-! ### One step of the job -/

theorem jobOver_eq_false_iff {j : Job} : jobOver j = false ↔ j.stage ≠ .closed ∧ j.stage ≠ .failed := by
  simp [jobOver]

/-- R138: the step that is next. -/
theorem advance_of_expected {step : JobStep} {j : Job} (h : expectedStep j.cursor = some step) :
    advance step j =
      { j with
        cursor := j.cursor + 1, stage := stageAt (j.cursor + 1)
        link := if stageAt (j.cursor + 1) = .closed then .down else j.link } :=
  if_pos h

/-- R140: any other step. -/
theorem advance_of_unexpected {step : JobStep} {j : Job} (h : expectedStep j.cursor ≠ some step) :
    advance step j = { j with reordered := true } :=
  if_neg h

theorem advance_stage (step : JobStep) (j : Job) : (advance step j).stage = stageOf step j := by
  unfold advance stageOf
  split <;> rfl

/-- R138 step 12: the link is released where the step closes the job. -/
theorem advance_link {step : JobStep} {j : Job} (hover : jobOver j = false) (hup : j.link = .up) :
    (advance step j).link = if (advance step j).stage = .closed then .down else .up := by
  by_cases h : expectedStep j.cursor = some step
  · rw [advance_of_expected h, hup]
  · rw [advance_of_unexpected h, if_neg (jobOver_eq_false_iff.mp hover).1, hup]

/-- A job goes on after every step but INITIALIZE. -/
theorem jobOver_advance {step : JobStep} {j : Job} (hstep : step ≠ .initPrinter) (hover : jobOver j = false) :
    jobOver (advance step j) = false := by
  by_cases h : expectedStep j.cursor = some step
  · rw [advance_of_expected h]
    exact jobOver_eq_false_iff.mpr ⟨stageAt_succ_ne_closed h hstep, stageAt_ne_failed (j.cursor + 1)⟩
  · rw [advance_of_unexpected h]
    exact hover

/-! ### Writing -/

theorem sendBytes_of_canWrite {s : State} (h : CanWrite s) (step : JobStep) (bs : List Byte) :
    sendBytes step bs s = { s with job := advance step (writeAll bs s.job) } := by
  obtain ⟨hover, hup⟩ := h
  simp [sendBytes, hover, hup]

/-- The next command can be written after every step but INITIALIZE. -/
theorem canWrite_sendBytes {s : State} (h : CanWrite s) {step : JobStep} (hstep : step ≠ .initPrinter)
    (bs : List Byte) : CanWrite (sendBytes step bs s) := by
  obtain ⟨hover, hup⟩ := h
  have hgo : jobOver (advance step (writeAll bs s.job)) = false := jobOver_advance hstep hover
  rw [sendBytes_of_canWrite ⟨hover, hup⟩]
  exact ⟨hgo, (advance_link (j := writeAll bs s.job) hover hup).trans (if_neg (jobOver_eq_false_iff.mp hgo).1)⟩

/-- The media format a job remembers once it has sent the command `i`. -/
def mediaAfter (media : Option (List Byte)) : Instr → Option (List Byte)
  | .setMediaFormat flags => some flags
  | _ => media

/-- What a command but QUERY_STATUS does where it can be written. -/
theorem exec_command_of_canWrite {i : Instr} {st : JobStep} {s : State} (hc : commandStep i = some st)
    (hi : i ≠ .queryStatus) (h : CanWrite s) :
    exec i s = .next
      { s with
        job := { advance st (writeAll (commandBytes i) s.job) with media := mediaAfter s.job.media i } } := by
  have hkept : { advance st (writeAll (commandBytes i) s.job) with media := s.job.media } =
      advance st (writeAll (commandBytes i) s.job) := by
    rw [← writeAll_media (commandBytes i) s.job, ← advance_media st]
  have hsent := sendBytes_of_canWrite h st (commandBytes i)
  cases i
  case queryStatus => exact absurd rfl hi
  case setMediaFormat flags =>
    cases hc
    have hgo := (canWrite_sendBytes h (step := .setMediaFormat) (by decide) (commandBytes (.setMediaFormat flags))).1
    rw [exec, execSetMediaFormat, rememberMedia, hgo, hsent]
    rfl
  all_goals cases hc
  all_goals exact congrArg Host.Outcome.next (hsent.trans (congrArg (fun j => { s with job := j }) hkept.symm))

/-- R126 to R137: such a command writes its bytes. -/
theorem writes_commandBytes {i : Instr} {st : JobStep} {s : State} (hc : commandStep i = some st)
    (hi : i ≠ .queryStatus) (h : CanWrite s) : Writes i s (commandBytes i) :=
  ⟨_, exec_command_of_canWrite hc hi h, by simp, by simp, by simp, by simp, advance_link h.1 h.2, rfl, rfl,
    by constructor <;> rfl⟩

/-- R134: the two bytes of the margin, low byte first. -/
theorem margin_toNat (margin : BitVec 16) :
    margin.toNat = (margin.extractLsb' 0 8).toNat + 256 * (margin.extractLsb' 8 8).toNat := by
  have hlt := margin.isLt
  rw [BitVec.extractLsb'_toNat, BitVec.extractLsb'_toNat, Nat.shiftRight_zero, Nat.shiftRight_eq_div_pow]
  omega

/-- Settles O50: each of the eight is a command that is written. -/
theorem commandsWriteTheirBytes : Obligations.CommandsWriteTheirBytes := fun _ h =>
  ⟨fun _ => writes_commandBytes rfl nofun h, writes_commandBytes rfl nofun h, fun _ => writes_commandBytes rfl nofun h,
    fun _ => writes_commandBytes rfl nofun h, fun _ => writes_commandBytes rfl nofun h,
    fun _ _ => writes_commandBytes rfl nofun h, fun margin => ⟨_, _, rfl, margin_toNat margin⟩,
    writes_commandBytes rfl nofun h, writes_commandBytes rfl nofun h⟩

/-- Settles O51: SET_MEDIA_FORMAT is written, and what it leaves in the job is its operand bytes. -/
theorem mediaFormatWritesItsOperands : Obligations.MediaFormatWritesItsOperands := by
  intro s flags h
  refine ⟨writes_commandBytes rfl nofun h, fun t ht => ?_⟩
  rw [exec_command_of_canWrite (i := .setMediaFormat flags) rfl nofun h] at ht
  rw [← next_injective ht]
  rfl

/-- Settles O54: a written command is one step of the job. -/
theorem commandsMoveTheJobOn : Obligations.CommandsMoveTheJobOn := by
  intro i st s hc hi h
  refine ⟨_, exec_command_of_canWrite hc hi h, fun hnext => ?_, fun hnext => ?_⟩
  · rw [advance_of_expected (j := writeAll (commandBytes i) s.job) hnext]
    exact ⟨rfl, rfl, rfl⟩
  · rw [advance_of_unexpected (j := writeAll (commandBytes i) s.job) hnext]
    exact ⟨rfl, rfl, rfl⟩

/-! ### Writing that fails -/

/-- R139: a command whose write ends the job, or finds it over, does nothing more. -/
theorem exec_command_of_over {i : Instr} {st : JobStep} {s : State} (hc : commandStep i = some st)
    (hover : jobOver (sendBytes st (commandBytes i) s).job = true) :
    exec i s = .next (sendBytes st (commandBytes i) s) := by
  cases i
  case queryStatus => cases hc; exact if_pos hover
  case setMediaFormat flags => cases hc; exact congrArg Host.Outcome.next (if_pos hover)
  all_goals cases hc
  all_goals rfl

/-- Settles O55: the failed write fails the job, and a job that is over is left as it is. -/
theorem writeErrorsFailTheJob : Obligations.WriteErrorsFailTheJob := by
  intro i st s hc
  refine ⟨fun e hgo hlink => ?_, fun hover => ?_⟩
  · have hsent : sendBytes st (commandBytes i) s = failJob (stageOf st s.job) e (writePart (commandBytes i) s) := by
      obtain ⟨hdown, rfl⟩ | ⟨hstalled, rfl⟩ := hlink
      · simp [sendBytes, hgo, hdown]
      · simp [sendBytes, hgo, hstalled]
    have hexec := exec_command_of_over (s := s) hc (by rw [hsent]; rfl)
    rw [hsent] at hexec
    obtain ⟨k, -, hwire⟩ := writePart_wire (commandBytes i) s
    exact ⟨_, k, hexec, ⟨rfl, rfl, rfl, rfl⟩, hwire, rfl, by constructor <;> rfl⟩
  · have hsent : sendBytes st (commandBytes i) s = s := if_pos hover
    have hexec := exec_command_of_over hc (hsent.symm ▸ hover)
    rwa [hsent] at hexec

/-! ### Reading a reply -/

/-- R142: what a read comes to while the link is up. -/
theorem readReply_of_canWrite {s : State} (h : CanWrite s) : readReply s = readExact s.cfg.frameLen [] s.job.inbox := by
  rw [readReply, h.2]

/-- A reply that is read becomes `IN` and is kept for PARSE. -/
theorem keepReply_receiveReply {keep : ReplyStatus → Job → Job} {s : State} {bs : List Byte} {rest : List Reply}
    (h : CanWrite s) (hread : readExact s.cfg.frameLen [] s.job.inbox = .done bs rest)
    (hfits : bs.length ≤ s.cfg.maxBytes) :
    keepReply keep (receiveReply s) =
      .next { s with inp := Memory.ofBytes bs, job := keep (.read bs) { s.job with inbox := rest } } := by
  have hgo : jobOver { s.job with inbox := rest } = false := h.1
  simp [receiveReply, readReply_of_canWrite h, hread, Nat.not_lt.mpr hfits, keepReply, hgo]

/-- QUERY_STATUS reads once it has written. -/
theorem exec_queryStatus_of_canWrite {s : State} (h : CanWrite s) :
    exec .queryStatus s =
      keepReply keepQuery (receiveReply (sendBytes .queryStatus (commandBytes .queryStatus) s)) := by
  have hgo := (canWrite_sendBytes h (step := .queryStatus) (by decide) (commandBytes .queryStatus)).1
  rw [exec, execQueryStatus, hgo]
  rfl

/-- What QUERY_STATUS does where it can be written and a reply can be read. -/
theorem exec_queryStatus_done {s : State} {bs : List Byte} {rest : List Reply} (h : CanWrite s)
    (hread : readExact s.cfg.frameLen [] s.job.inbox = .done bs rest) (hfits : bs.length ≤ s.cfg.maxBytes) :
    exec .queryStatus s = .next
      { s with
        inp := Memory.ofBytes bs
        job :=
          { advance .queryStatus (writeAll (commandBytes .queryStatus) s.job) with
            inbox := rest, query := .read bs } } := by
  have hcan := canWrite_sendBytes h (step := .queryStatus) (by decide) (commandBytes .queryStatus)
  rw [exec_queryStatus_of_canWrite h]
  rw [sendBytes_of_canWrite h] at hcan ⊢
  exact keepReply_receiveReply hcan (by simpa using hread) hfits

/-- Settles O52: the write is one step of the job, the read hands `IN` over, and a read of a stream loses nothing. -/
theorem queryStatusHandsTheReplyOver : Obligations.QueryStatusHandsTheReplyOver := by
  refine ⟨fun s bs rest h hread hfits => ?_, fun inbox rest n bs hwhole hread => ?_⟩
  · have hcan := canWrite_sendBytes h (step := .queryStatus) (by decide) (commandBytes .queryStatus)
    rw [sendBytes_of_canWrite h] at hcan
    refine ⟨_, exec_queryStatus_done h hread hfits, by simp [commandBytes], by simp [commandBytes], rfl, rfl, rfl,
      by simp, hcan.2, rfl, by constructor <;> rfl, fun hnext => ?_, fun hnext => ?_⟩
    · rw [advance_of_expected (j := writeAll (commandBytes .queryStatus) s.job) hnext]
      exact ⟨rfl, rfl, rfl⟩
    · rw [advance_of_unexpected (j := writeAll (commandBytes .queryStatus) s.job) hnext]
      exact ⟨rfl, rfl, rfl⟩
  · obtain ⟨hlen, hbytes⟩ := readExact_done hwhole hread
    exact ⟨by simpa using hlen, by simpa using hbytes⟩

/-- Where the read fails the job, QUERY_STATUS ends there. -/
theorem exec_queryStatus_failed {s : State} {e : IoError} {inbox : List Reply} (h : CanWrite s)
    (hread : receiveReply (sendBytes .queryStatus (commandBytes .queryStatus) s) =
      .next (failJob (stageOf .queryStatus s.job) e
        { s with job := { advance .queryStatus (writeAll (commandBytes .queryStatus) s.job) with inbox := inbox } })) :
    ∃ t, exec .queryStatus s = .next t ∧ Failed (stageOf .queryStatus s.job) e s t ∧ t.job.inbox = inbox ∧
      SameBlock s t := by
  rw [exec_queryStatus_of_canWrite h, hread]
  exact ⟨_, rfl, ⟨rfl, rfl, rfl, rfl⟩, rfl, by constructor <;> rfl⟩

/-- Settles O53: the read fails the job in the state of the step that was written. -/
theorem queryStatusReadErrorsFailTheJob : Obligations.QueryStatusReadErrorsFailTheJob := by
  intro s h
  have hcan := canWrite_sendBytes h (step := .queryStatus) (by decide) (commandBytes .queryStatus)
  rw [sendBytes_of_canWrite h] at hcan
  have hstage : (advance .queryStatus (writeAll (commandBytes .queryStatus) s.job)).stage =
      stageOf .queryStatus s.job := advance_stage _ _
  refine ⟨fun hread => ?_, fun rest hread => ?_, fun hcursor => ?_, fun hcursor => ?_⟩
  · obtain ⟨t, hgo, hfailed, -, hblock⟩ := exec_queryStatus_failed (e := .timeout) (inbox := []) h (by
      simp [sendBytes_of_canWrite h, receiveReply, readReply_of_canWrite hcan, hread, hstage])
    exact ⟨t, hgo, hfailed, hblock⟩
  · exact exec_queryStatus_failed h (by
      simp [sendBytes_of_canWrite h, receiveReply, readReply_of_canWrite hcan, hread, hstage])
  · rw [stageOf, if_pos (expectedStep_eq_queryStatus_iff.mpr hcursor), hcursor]
    rfl
  · exact if_neg (mt expectedStep_eq_queryStatus_iff.mp hcursor)

end Sys2Proof.Machine

end

/-! ## 44_wire_command_context.md: words of the four code spaces -/

section

namespace Sys2Proof

/-- Settles O6: the decoder computes each of them. -/
theorem sampleWordsDecode : Obligations.SampleWordsDecode :=
  ⟨rfl, rfl, rfl, rfl, rfl, rfl, rfl, rfl⟩

end Sys2Proof

end

/-! ## 44_wire_command_context.md: opening the transport -/

section

namespace Sys2Proof.Machine

open Sys2Proof

/-- R142: one of the first ten lookups finds the service. -/
theorem connect_isSome_iff (lookups : List Bool) :
    (connect lookups).isSome = true ↔ ∃ i, i < 10 ∧ lookups[i]? = some true := by
  rw [connect, List.findIdx?_isSome, List.any_eq_true]
  constructor
  · rintro ⟨found, hmem, hfound⟩
    obtain ⟨i, hi⟩ := List.mem_iff_getElem?.mp hmem
    rw [List.getElem?_take, Option.ite_none_right_eq_some] at hi
    obtain ⟨hlt, hget⟩ := hi
    exact ⟨i, hlt, of_decide_eq_true hfound ▸ hget⟩
  · rintro ⟨i, hlt, hget⟩
    exact ⟨true, List.mem_iff_getElem?.mpr ⟨i, (List.getElem?_take_of_lt hlt).trans hget⟩, rfl⟩

theorem connect_eq_none_iff (lookups : List Bool) :
    connect lookups = none ↔ ∀ i, i < 10 → lookups[i]? ≠ some true := by
  rw [← Option.not_isSome_iff_eq_none, connect_isSome_iff]
  simp

/-- The error "service not found" is that of the ten lookups alone. -/
theorem openError_bluetooth_eq_serviceNotFound_iff (lookups : List Bool) (ok : Bool) :
    openError (.bluetooth lookups ok) = some .serviceNotFound ↔ connect lookups = none := by
  rw [openError]
  cases connect lookups with
  | none => exact iff_of_true rfl rfl
  | some attempt => cases ok <;> simp

/-- Once the service is found the channel decides. -/
theorem openError_bluetooth_of_connect {lookups : List Bool} (h : (connect lookups).isSome = true) (ok : Bool) :
    openError (.bluetooth lookups ok) = if ok then none else some .openFailed := by
  obtain ⟨attempt, hattempt⟩ := Option.isSome_iff_exists.mp h
  rw [openError, hattempt]

/-- The move that opens a transport. -/
theorem step_openTransport {s : State} {name : String} {ch : Channel} {rest : List Move} (ha : s.activity = .idle)
    (hh : s.host = .openTransport name ch :: rest) :
    step s = .next (openTransport name ch { s with host := rest }) :=
  step_hostMove ha hh nofun nofun nofun

/-- Settles O59: `connect` looks at the first ten lookups, and opening a transport does what `openError` says. -/
theorem connectTriesTenTimes : Obligations.ConnectTriesTenTimes := by
  refine ⟨connect_isSome_iff, fun _ => rfl, fun lookups ok => ⟨?_, fun hfound => ?_⟩, opens_iff, ?_⟩
  · rw [openError_bluetooth_eq_serviceNotFound_iff, connect_eq_none_iff]
  · exact openError_bluetooth_of_connect ((connect_isSome_iff lookups).mpr hfound) ok
  · intro s rest name ch ha hh hgo
    refine ⟨_, step_openTransport ha hh, ?_⟩
    obtain ⟨hover, -⟩ | ⟨-, hopens, ht⟩ | ⟨-, e, herror, ht⟩ := openTransport_cases name ch { s with host := rest }
    · exact absurd hover (by simp [hgo])
    · rw [ht]
      exact ⟨by constructor <;> rfl, fun _ => ⟨rfl, rfl⟩, fun e he => nomatch hopens.symm.trans he⟩
    · rw [ht]
      refine ⟨by constructor <;> rfl, fun hopens => absurd (herror.symm.trans hopens) nofun, fun e' he' => ?_⟩
      obtain rfl := Option.some.inj (herror.symm.trans he')
      exact ⟨rfl, rfl, rfl, rfl⟩

end Sys2Proof.Machine

end

/-! ## 44_wire_command_context.md: the flag bytes -/

section

namespace Sys2Proof.Machine

open Sys2Proof

/-- A bit is made what it is set to, and the others stay. -/
theorem getLsbD_setBit {i j : Nat} (hj : j < 8) (v : Bool) (b : Byte) :
    (setBit i v b).getLsbD j = if j = i then v else b.getLsbD j := by
  have hmask : (BitVec.ofNat 8 (2 ^ i)).getLsbD j = decide (i = j) := by
    rw [BitVec.getLsbD_ofNat, Nat.testBit_two_pow, decide_eq_true hj, Bool.true_and]
  cases v with
  | true => simp only [setBit, if_true, BitVec.getLsbD_or, hmask]; grind
  | false => simp only [setBit, Bool.false_eq_true, if_false, BitVec.getLsbD_and, BitVec.getLsbD_not, hmask]; grind

/-- A bit that no field of the list is placed at stays. -/
theorem getLsbD_setFlagBits_of_unplaced {place : Toggle → BitPlace} {fb : FlagByte} (pc : PrintConfig) {i : Fin 8}
    {ts : List Toggle} (b : Byte) (h : ∀ t ∈ ts, (place t).byte = fb → (place t).bit ≠ i) :
    (setFlagBits place fb pc ts b).getLsbD i = b.getLsbD i := by
  induction ts generalizing b with
  | nil => rfl
  | cons t ts ih =>
    obtain ⟨hhead, htail⟩ := List.forall_mem_cons.mp h
    rw [setFlagBits, ih _ htail]
    split
    · next hbyte => rw [getLsbD_setBit i.isLt, if_neg fun hi => hhead hbyte (Fin.ext hi.symm)]
    · rfl

/-- A field of the list sets the bit it is placed at, as no other field is placed there. -/
theorem getLsbD_setFlagBits_of_mem {place : Toggle → BitPlace} {fb : FlagByte} (pc : PrintConfig) {t : Toggle}
    {ts : List Toggle} (b : Byte)
    (hplaces : ∀ t t', (place t).byte = (place t').byte → (place t).bit = (place t').bit → t = t')
    (hbyte : (place t).byte = fb) (hmem : t ∈ ts) :
    (setFlagBits place fb pc ts b).getLsbD (place t).bit = (toggleOf pc t == (place t).whenOn) := by
  induction ts generalizing b with
  | nil => cases hmem
  | cons t' ts ih =>
    rw [setFlagBits]
    by_cases hlater : t ∈ ts
    · exact ih _ hlater
    · obtain rfl : t = t' := (List.mem_cons.mp hmem).resolve_right hlater
      have hunplaced : ∀ u ∈ ts, (place u).byte = fb → (place u).bit ≠ (place t).bit := fun u hu hub hbit =>
        hlater (hplaces u t (hub.trans hbyte.symm) hbit ▸ hu)
      rw [getLsbD_setFlagBits_of_unplaced pc _ hunplaced, if_pos hbyte, getLsbD_setBit (place t).bit.isLt, if_pos rfl]

/-- R141: `toggles` lists every field. -/
theorem mem_toggles (t : Toggle) : t ∈ toggles := by
  cases t <;> decide

/-- Settles O60: a field that is not placed in the byte is not read, and one that is sets its bit. -/
theorem flagBytesCarryTheirFields : Obligations.FlagBytesCarryTheirFields := fun place fb pc base =>
  ⟨fun pc' => setFlagBits_congr place fb pc pc' toggles base,
    fun hplaces t hbyte => getLsbD_setFlagBits_of_mem pc base hplaces hbyte (mem_toggles t)⟩

end Sys2Proof.Machine

end

/-! ## 44_wire_command_context.md: a print job in progress -/

section

namespace Sys2Proof.Machine

open Sys2Proof

/-! ### What the moves of a job change -/

/-- What a job in the order of R138 has come to: its own fields, and what it uses of the block. -/
structure Progress where
  cursor : Nat
  wire : List Byte
  inbox : List Reply
  media : Option (List Byte)
  query : ReplyStatus
  final : ReplyStatus
  log : List LogEntry
  inp : Memory
  out : Memory
  sf : Option StatusFrame

/-- The job over the transport `name` has come to `p`, in the order of R138 and without an error. -/
structure Job.Reached (name : String) (p : Progress) (j : Job) : Prop where
  stage : j.stage = stageAt p.cursor
  cursor : j.cursor = p.cursor
  failure : j.failure = none
  reordered : j.reordered = false
  miscounted : j.miscounted = false
  link : j.link = if stageAt p.cursor = .closed then .down else .up
  name : j.name = name
  wire : j.wire = p.wire
  inbox : j.inbox = p.inbox
  media : j.media = p.media
  query : j.query = p.query
  final : j.final = p.final
  log : j.log = p.log

/-- The idle block, under the configuration `c`, serves a job that has come to `p`, and `moves` are to come. -/
structure InProgress (c : Config) (name : String) (moves : List Move) (p : Progress) (s : State) : Prop where
  cfg : s.cfg = c
  idle : s.activity = .idle
  host : s.host = moves
  inp : s.inp = p.inp
  out : s.out = p.out
  sf : s.sf = p.sf
  job : s.job.Reached name p

variable {c : Config} {name : String} {p : Progress}

/-- While a step is next the job goes on and the link is up. -/
theorem Job.Reached.canWrite {j : Job} {step : JobStep} (h : j.Reached name p)
    (hnext : expectedStep p.cursor = some step) : jobOver j = false ∧ j.link = .up := by
  have hclosed := stageAt_ne_closed hnext
  refine ⟨jobOver_eq_false_iff.mpr ?_, h.link.trans (if_neg hclosed)⟩
  rw [h.stage]
  exact ⟨hclosed, stageAt_ne_failed p.cursor⟩

/-- The step that is next keeps the job in order. -/
theorem Job.Reached.advance {j : Job} {step : JobStep} (h : j.Reached name p)
    (hnext : expectedStep p.cursor = some step) :
    (advance step j).Reached name { p with cursor := p.cursor + 1 } := by
  rw [advance_of_expected (h.cursor.symm ▸ hnext), (h.canWrite hnext).2, h.cursor]
  exact { h with stage := rfl, cursor := rfl, link := rfl }

/-- So does a step that writes bytes. -/
theorem Job.Reached.write {j : Job} {step : JobStep} (h : j.Reached name p)
    (hnext : expectedStep p.cursor = some step) (bs : List Byte) :
    (Machine.advance step (writeAll bs j)).Reached name { p with cursor := p.cursor + 1, wire := p.wire ++ bs } := by
  have hwritten : (writeAll bs j).Reached name { p with wire := p.wire ++ bs } :=
    { h with wire := congrArg (· ++ bs) h.wire }
  exact hwritten.advance hnext

/-! ### One move -/

/-- The move `m` takes a job from `p` to `q` in one step, whatever is to come behind it. -/
def Takes (c : Config) (name : String) (m : Move) (p q : Progress) : Prop :=
  ∀ (rest : List Move) (s : State), InProgress c name (m :: rest) p s →
    ∃ t, step s = .next t ∧ InProgress c name rest q t

/-- A command that the host sends is run with the move off the list. -/
theorem step_sendCommand {i : Instr} {st : JobStep} {s : State} {rest : List Move} (hc : commandStep i = some st)
    (hwf : i.wf s.cfg.toFormat = true) (ha : s.activity = .idle) (hh : s.host = sendCommand i :: rest) :
    step s = exec i { s with host := rest } := by
  have hd : decode s.cfg.toFormat (.command (commandBytes i)) = .ok (i, []) := by
    simp only [decode, decodeCommand_commandBytes hc hwf]
  rw [step_decoded (fetch_command ha hh) hd, accept_command ha hh]

/-- A command whose step is next. -/
theorem takes_command {i : Instr} {st : JobStep} (hc : commandStep i = some st) (hi : i ≠ .queryStatus)
    (hwf : i.wf c.toFormat = true) (hnext : expectedStep p.cursor = some st) :
    Takes c name (sendCommand i) p
      { p with cursor := p.cursor + 1, wire := p.wire ++ commandBytes i, media := mediaAfter p.media i } := by
  intro rest s h
  obtain rfl := h.cfg
  have hcan : CanWrite { s with host := rest } := h.job.canWrite hnext
  have hjob := h.job.write hnext (commandBytes i)
  have hmedia : mediaAfter s.job.media i = mediaAfter p.media i := congrArg (mediaAfter · i) h.job.media
  exact ⟨_, (step_sendCommand hc hwf h.idle h.host).trans (exec_command_of_canWrite hc hi hcan),
    { h with host := rfl, job := { hjob with media := hmedia } }⟩

/-- R138 step 3, where it is next and a reply can be read. -/
theorem takes_queryStatus {bs : List Byte} {left : List Reply} (hnext : expectedStep p.cursor = some .queryStatus)
    (hread : readExact c.frameLen [] p.inbox = .done bs left) (hfits : bs.length ≤ c.maxBytes) :
    Takes c name (sendCommand .queryStatus) p
      { p with
        cursor := p.cursor + 1, wire := p.wire ++ commandBytes .queryStatus
        inp := Memory.ofBytes bs, inbox := left, query := .read bs } := by
  intro rest s h
  obtain rfl := h.cfg
  have hcan : CanWrite { s with host := rest } := h.job.canWrite hnext
  have hjob := h.job.write hnext (commandBytes .queryStatus)
  rw [← h.job.inbox] at hread
  exact ⟨_, (step_sendCommand rfl rfl h.idle h.host).trans (exec_queryStatus_done hcan hread hfits),
    { h with host := rfl, inp := rfl, job := { hjob with inbox := rfl, query := rfl } }⟩

/-- R138 step 11, where it is next and a reply can be read. -/
theorem takes_readStatus {bs : List Byte} {left : List Reply} (hnext : expectedStep p.cursor = some .readStatus)
    (hread : readExact c.frameLen [] p.inbox = .done bs left) (hfits : bs.length ≤ c.maxBytes) :
    Takes c name .readStatus p
      { p with cursor := p.cursor + 1, inp := Memory.ofBytes bs, inbox := left, final := .read bs } := by
  intro rest s h
  obtain rfl := h.cfg
  have hgo := (h.job.canWrite hnext).1
  have hjob := h.job.advance hnext
  have hcan : CanWrite { s with host := rest, job := advance .readStatus s.job } :=
    ⟨jobOver_advance (by decide) hgo, hjob.link.trans (if_neg (stageAt_succ_ne_closed hnext (by decide)))⟩
  have hmove : hostMove .readStatus { s with host := rest } =
      keepReply keepFinal (receiveReply { s with host := rest, job := advance .readStatus s.job }) :=
    if_neg (by simp [hgo])
  rw [← hjob.inbox] at hread
  exact ⟨_, (step_hostMove h.idle h.host nofun nofun nofun).trans
    (hmove.trans (keepReply_receiveReply hcan hread hfits)),
    { h with host := rfl, inp := rfl, job := { hjob with inbox := rfl, final := rfl } }⟩

/-- PARSE of what was read (R175). -/
theorem takes_parse {raw : List Byte} (hraw : p.inp.bytes = raw) :
    Takes c name (.present (opWord 2#2 0#8 0#8)) p { p with out := [], sf := parseReply c raw } := by
  intro rest s h
  obtain rfl := h.cfg
  obtain rfl : s.inp.bytes = raw := h.inp.symm ▸ hraw
  have hstep : step s = exec .parse { s with host := rest, started := true } := step_present h.idle h.host
  by_cases hlen : s.inp.length = s.cfg.frameLen
  · have hframe : some (parseFrame s.cfg s.inp.bytes) = parseReply s.cfg s.inp.bytes := by
      rw [parseReply, Memory.length_bytes, if_pos hlen]
    exact ⟨_, hstep.trans (exec_parse_of_frameLen hlen),
      { h with idle := rfl, host := rfl, out := rfl, sf := hframe, job := { h.job with } }⟩
  · have hframe : none = parseReply s.cfg s.inp.bytes := by
      rw [parseReply, Memory.length_bytes, if_neg hlen]
    exact ⟨_, hstep.trans (exec_parse_of_ne_frameLen hlen),
      { h with idle := rfl, host := rfl, out := rfl, sf := hframe, job := { h.job with } }⟩

/-- The job takes the status that waits, and logs it (R109). -/
theorem takes_collect : Takes c name .collect p
    { p with
      query := settle c p.sf p.query, final := settle c p.sf p.final
      log := p.log ++ settleEntries c p.sf p.query ++ settleEntries c p.sf p.final } := by
  intro rest s h
  obtain rfl := h.cfg
  refine ⟨_, step_hostMove h.idle h.host nofun nofun nofun,
    { h with host := rfl, job := { h.job with query := ?_, final := ?_, log := ?_ } }⟩
  all_goals simp only [collectStatus, h.sf, h.job.query, h.job.final, h.job.log]

/-- R138 step 3: the status asked for first is taken while none is awaited as the final one. -/
theorem takes_collect_query {raw : List Byte} (hquery : p.query = .read raw) (hsf : p.sf = parseReply c raw)
    (hfinal : p.final = .awaited) :
    Takes c name .collect p
      { p with
        query := .decoded (parseReply c raw), log := p.log ++ statusEntries raw.length (parseReply c raw) } := by
  obtain ⟨hsettled, hentries⟩ := settle_read hsf
  have h := takes_collect (c := c) (name := name) (p := p)
  rw [← hsf]
  rwa [hquery, hsettled, hentries, hfinal, settle, settleEntries, List.append_nil, ← hfinal] at h

/-- R138 step 11: the final status is taken after that. -/
theorem takes_collect_final {raw : List Byte} {frame : Option StatusFrame} (hquery : p.query = .decoded frame)
    (hfinal : p.final = .read raw) (hsf : p.sf = parseReply c raw) :
    Takes c name .collect p
      { p with
        final := .decoded (parseReply c raw), log := p.log ++ statusEntries raw.length (parseReply c raw) } := by
  obtain ⟨hsettled, hentries⟩ := settle_read hsf
  have h := takes_collect (c := c) (name := name) (p := p)
  rw [← hsf]
  rwa [hfinal, hsettled, hentries, hquery, settle, settleEntries, List.append_nil, ← hquery] at h

/-- The bitmap is written into `IN`. -/
theorem takes_load {bs : List Byte} (hfits : bs.length ≤ c.maxBytes) :
    Takes c name (.load bs) p { p with inp := Memory.ofBytes bs } := by
  intro rest s h
  obtain rfl := h.cfg
  have hload : hostMove (.load bs) { s with host := rest } = .next { s with host := rest, inp := Memory.ofBytes bs } :=
    if_neg (Nat.not_lt.mpr hfits)
  exact ⟨_, (step_hostMove h.idle h.host nofun nofun nofun).trans hload,
    { h with host := rfl, inp := rfl, job := { h.job with } }⟩

/-- ENCODE of whole lines whose stream fits. -/
theorem takes_encode (hwhole : p.inp.length % c.L = 0) (hfits : (encodeStream c p.inp).length ≤ c.maxBytes) :
    Takes c name (.present (opWord 0#2 0#8 0#8)) p { p with out := Memory.ofBytes (encodeStream c p.inp) } := by
  intro rest s h
  obtain rfl := h.cfg
  have hout : Memory.ofBytes (encodeStream s.cfg s.inp) = Memory.ofBytes (encodeStream s.cfg p.inp) := by rw [h.inp]
  rw [← h.inp] at hwhole hfits
  have hencode := exec_encode_success (s := { s with host := rest, started := true }) hwhole hfits
  exact ⟨_, (step_present h.idle h.host).trans hencode,
    { h with idle := rfl, host := rfl, out := hout, job := { h.job with } }⟩

/-- R136: TRANSFER of as many packets as the media format announced. -/
theorem takes_transfer (hnext : expectedStep p.cursor = some .transfer)
    (hcount : p.media.bind announcedLines = some (packetCount c.toFormat p.out.length p.out.bytes)) :
    Takes c name .transfer p { p with cursor := p.cursor + 1, wire := p.wire ++ p.out.bytes } := by
  intro rest s h
  obtain rfl := h.cfg
  have hcan : CanWrite { s with host := rest } := h.job.canWrite hnext
  have hagrees : countAgrees { s with host := rest } = true := by
    simp [countAgrees, h.out, h.job.media, hcount]
  have hsame : ({ s with
      host := rest
      job := { s.job with miscounted := s.job.miscounted || !countAgrees { s with host := rest } } } : State) =
      { s with host := rest } := by
    rw [hagrees, Bool.not_true, Bool.or_false]
  have htransfer : transferStream { s with host := rest } =
      { s with host := rest, job := advance .transfer (writeAll p.out.bytes s.job) } := by
    rw [transferStream, hcan.1, hsame, sendBytes_of_canWrite hcan, ← h.out]
    rfl
  have hjob := h.job.write hnext p.out.bytes
  exact ⟨_, (step_hostMove h.idle h.host nofun nofun nofun).trans (congrArg Host.Outcome.next htransfer),
    { h with host := rfl, job := { hjob with } }⟩

/-! ### A list of moves -/

/-- The moves take a job from `p` to `q`, one after the other. -/
inductive Does (c : Config) (name : String) : List Move → Progress → Progress → Prop where
  | nil {p : Progress} : Does c name [] p p
  | cons {m : Move} {ms : List Move} {p q r : Progress} (head : Takes c name m p q) (tail : Does c name ms q r) :
      Does c name (m :: ms) p r

theorem Does.append {ms ms' : List Move} {q r : Progress} (h : Does c name ms p q) (h' : Does c name ms' q r) :
    Does c name (ms ++ ms') p r := by
  induction h with
  | nil => exact h'
  | cons head _ ih => exact .cons head (ih h')

/-- A run does all of them, one a step. -/
theorem Does.run {ms : List Move} {q : Progress} (h : Does c name ms p q) {s : State} (hs : InProgress c name ms p s) :
    ∃ t, Host.Core.run core ms.length s = .next t ∧ InProgress c name [] q t := by
  induction h generalizing s with
  | nil => exact ⟨s, rfl, hs⟩
  | @cons m ms p q r head tail ih =>
    obtain ⟨v, hstep, hv⟩ := head ms s hs
    obtain ⟨t, hrun, ht⟩ := ih hv
    refine ⟨t, ?_, ht⟩
    rw [List.length_cons, run_succ, hstep]
    exact hrun

end Sys2Proof.Machine

end

/-! ## 44_wire_command_context.md: a print job from its start to its end -/

section

namespace Sys2Proof.Machine

open Sys2Proof

/-! ### The packets that TRANSFER sends (R131) -/

/-- The packets of a stream are counted one by one. -/
theorem packetCount_packetStream {p : Format} {payloads : List (List Byte)} {fuel : Nat}
    (hfuel : payloads.length ≤ fuel) (hshort : ∀ payload ∈ payloads, payload.length < 256 ^ p.lenBytes) :
    packetCount p fuel (packetStream p payloads) = payloads.length := by
  induction payloads generalizing fuel with
  | nil => cases fuel <;> rfl
  | cons payload payloads ih =>
    obtain ⟨fuel, rfl⟩ : ∃ n, fuel = n + 1 := ⟨fuel - 1, by rw [List.length_cons] at hfuel; omega⟩
    obtain ⟨hpayload, htail⟩ := List.forall_mem_cons.mp hshort
    rw [packetStream_cons, packetCount, readPacket_wrapPacket p payload _ hpayload]
    exact congrArg (· + 1) (ih (Nat.le_of_succ_le_succ hfuel) htail)

/-- The stream of a bitmap holds a packet for each raster line. -/
theorem packetCount_encodeStream {c : Config} {m : Memory} {fuel : Nat} (hc : c.wf = true)
    (hfuel : (encodeStream c m).length ≤ fuel) :
    packetCount c.toFormat fuel (encodeStream c m) = lineCount c m.length := by
  rw [encodeStream_eq_packetStream] at hfuel ⊢
  rw [packetCount_packetStream ((length_le_packetStream _ _).trans hfuel)
    (goodPackets_rasterLines m (payload_lt_of_wf hc)).short, List.length_map, rasterLines_length, lineCount]

/-- The media format of a job announces as many lines as its bitmap has (R131, log 33). -/
theorem announcedLines_of_le_maxLines {c : Config} (mf : MediaFormat) {len : Nat} (h : lineCount c len ≤ maxLines) :
    announcedLines (mediaOperands c mf len) = some (lineCount c len) := by
  rw [announcedLines_mediaOperands, le16_lo8_hi8 h]

/-! ### The four parts of a job (R138) -/

/-- Steps 1 to 3: the status is asked for and decoded. -/
def askMoves (mode : Byte) : List Move :=
  [sendCommand (.enterRaster mode), sendCommand .initPrinter, sendCommand .queryStatus,
   .present (opWord 2#2 0#8 0#8), .collect]

/-- Steps 4 to 8: the printer is set up. -/
def setupMoves (c : Config) (mode : Byte) (mf : MediaFormat) (pc : PrintConfig) (len : Nat) : List Move :=
  [sendCommand (.flush 64), sendCommand .initPrinter, sendCommand (.enterRaster mode),
   sendCommand (.setMediaFormat (mediaOperands c mf len)), sendCommand (.setExpandedMode (flagByte .expanded pc)),
   sendCommand (.setModeFlags (flagByte .mode pc)), sendCommand (marginCommand pc.feedMargin),
   sendCommand .setCompression]

/-- Steps 9 and 10: the bitmap is encoded, sent and printed. -/
def printMoves (bitmap : List Byte) : List Move :=
  [.load bitmap, .present (opWord 0#2 0#8 0#8), .transfer, sendCommand .printAndFeed]

/-- Steps 11 and 12: the final status is read and decoded, and the job is closed. -/
def closeMoves : List Move :=
  [.readStatus, .present (opWord 2#2 0#8 0#8), .collect, sendCommand .initPrinter]

/-- A job is its four parts, and its bitmap has no more lines than the count can say. -/
theorem jobMoves_eq_some {c : Config} {mode : Byte} {mf : MediaFormat} {pc : PrintConfig} {bitmap : List Byte}
    {moves : List Move} (h : jobMoves c mode mf pc bitmap = some moves) :
    lineCount c bitmap.length ≤ maxLines ∧
      moves = askMoves mode ++ (setupMoves c mode mf pc bitmap.length ++ (printMoves bitmap ++ closeMoves)) := by
  unfold jobMoves at h
  split at h
  · cases h
  · next hle => exact ⟨Nat.le_of_not_lt hle, (Option.some.inj h).symm⟩

section

variable {c : Config} {name : String} {p : Progress}

/-- The first status is read, decoded and logged, whatever it says. -/
theorem does_askMoves {first : List Byte} {left : List Reply} (mode : Byte) (hcursor : p.cursor = 0)
    (hfinal : p.final = .awaited) (hread : readExact c.frameLen [] p.inbox = .done first left)
    (hfits : first.length ≤ c.maxBytes) :
    Does c name (askMoves mode) p
      { p with
        cursor := 3
        wire := p.wire ++ [0x1B#8, 0x69#8, 0x61#8, mode] ++ [0x1B#8, 0x40#8] ++ [0x1B#8, 0x69#8, 0x53#8]
        inbox := left, inp := Memory.ofBytes first, out := [], sf := parseReply c first
        query := .decoded (parseReply c first)
        log := p.log ++ statusEntries first.length (parseReply c first) } := by
  obtain ⟨cursor, wire, inbox, media, query, final, log, inp, out, sf⟩ := p
  obtain rfl : cursor = 0 := hcursor
  exact .cons (takes_command rfl nofun rfl rfl) <| .cons (takes_command rfl nofun rfl rfl) <|
    .cons (takes_queryStatus rfl hread hfits) <| .cons (takes_parse (Memory.bytes_ofBytes first)) <|
    .cons (takes_collect_query rfl rfl hfinal) .nil

/-- Eight commands in a row. -/
theorem does_setupMoves (mode : Byte) (mf : MediaFormat) (pc : PrintConfig) (len : Nat) (hcursor : p.cursor = 3) :
    Does c name (setupMoves c mode mf pc len) p
      { p with
        cursor := 11
        media := some (mediaOperands c mf len)
        wire := p.wire ++ List.replicate 64 0x00#8 ++ [0x1B#8, 0x40#8] ++ [0x1B#8, 0x69#8, 0x61#8, mode] ++
          ([0x1B#8, 0x69#8, 0x7A#8] ++ mediaOperands c mf len) ++ [0x1B#8, 0x69#8, 0x4B#8, flagByte .expanded pc] ++
          [0x1B#8, 0x69#8, 0x4D#8, flagByte .mode pc] ++ commandBytes (marginCommand pc.feedMargin) ++
          [0x4D#8, 0x02#8] } := by
  obtain ⟨cursor, wire, inbox, media, query, final, log, inp, out, sf⟩ := p
  obtain rfl : cursor = 3 := hcursor
  exact .cons (takes_command rfl nofun rfl rfl) <| .cons (takes_command rfl nofun rfl rfl) <|
    .cons (takes_command rfl nofun rfl rfl) <| .cons (takes_command rfl nofun rfl rfl) <|
    .cons (takes_command rfl nofun rfl rfl) <| .cons (takes_command rfl nofun rfl rfl) <|
    .cons (takes_command rfl nofun rfl rfl) <| .cons (takes_command rfl nofun rfl rfl) .nil

/-- The stream of the bitmap is sent, and its packets are as many as announced. -/
theorem does_printMoves {mf : MediaFormat} {bitmap : List Byte} (hcursor : p.cursor = 11)
    (hmedia : p.media = some (mediaOperands c mf bitmap.length)) (hc : c.wf = true)
    (hlines : lineCount c bitmap.length ≤ maxLines) (hbitmap : bitmap.length ≤ c.maxBytes)
    (hwhole : bitmap.length % c.L = 0) (hfits : (encodeStream c (Memory.ofBytes bitmap)).length ≤ c.maxBytes) :
    Does c name (printMoves bitmap) p
      { p with
        cursor := 13, wire := p.wire ++ encodeStream c (Memory.ofBytes bitmap) ++ [0x1A#8]
        inp := Memory.ofBytes bitmap, out := Memory.ofBytes (encodeStream c (Memory.ofBytes bitmap)) } := by
  obtain ⟨cursor, wire, inbox, media, query, final, log, inp, out, sf⟩ := p
  obtain rfl : cursor = 11 := hcursor
  have hcount : media.bind announcedLines = some (packetCount c.toFormat
      (Memory.ofBytes (encodeStream c (Memory.ofBytes bitmap))).length
      (Memory.ofBytes (encodeStream c (Memory.ofBytes bitmap))).bytes) := by
    rw [Memory.length_ofBytes, Memory.bytes_ofBytes, packetCount_encodeStream hc le_rfl, Memory.length_ofBytes]
    exact (congrArg (·.bind announcedLines) hmedia).trans (announcedLines_of_le_maxLines mf hlines)
  have hsent := takes_transfer (c := c) (name := name)
    (p := ⟨11, wire, inbox, media, query, final, log, Memory.ofBytes bitmap,
      Memory.ofBytes (encodeStream c (Memory.ofBytes bitmap)), sf⟩) rfl hcount
  rw [Memory.bytes_ofBytes] at hsent
  exact .cons (takes_load hbitmap) <|
    .cons (takes_encode ((Memory.length_ofBytes bitmap).symm ▸ hwhole) hfits) <| .cons hsent <|
    .cons (takes_command rfl nofun rfl rfl) .nil

/-- The final status is read, decoded and logged, and the job closed. -/
theorem does_closeMoves {last : List Byte} {frame : Option StatusFrame} {left : List Reply} (hcursor : p.cursor = 13)
    (hquery : p.query = .decoded frame) (hread : readExact c.frameLen [] p.inbox = .done last left)
    (hfits : last.length ≤ c.maxBytes) :
    Does c name closeMoves p
      { p with
        cursor := 15, wire := p.wire ++ [0x1B#8, 0x40#8]
        inbox := left, inp := Memory.ofBytes last, out := [], sf := parseReply c last
        final := .decoded (parseReply c last)
        log := p.log ++ statusEntries last.length (parseReply c last) } := by
  obtain ⟨cursor, wire, inbox, media, query, final, log, inp, out, sf⟩ := p
  obtain rfl : cursor = 13 := hcursor
  exact .cons (takes_readStatus rfl hread hfits) <| .cons (takes_parse (Memory.bytes_ofBytes last)) <|
    .cons (takes_collect_final hquery rfl rfl) <| .cons (takes_command rfl nofun rfl rfl) .nil

end

/-! ### The start and the end -/

/-- R139: the state once a job is started from `Idle`, with `moves` to come. -/
def restarted (moves : List Move) (s : State) : State :=
  { s with
    host := moves
    job := { Job.atIdle with inbox := s.job.inbox, link := s.job.link, name := s.job.name, log := s.job.log } }

/-- What a job has come to once it is started and its transport is open: nothing but what was there before (log 26). -/
def startOf (s : State) : Progress where
  cursor := 0
  wire := []
  inbox := s.job.inbox
  media := none
  query := .awaited
  final := .awaited
  log := s.job.log
  inp := s.inp
  out := s.out
  sf := s.sf

theorem openTransport_of_opens {s : State} {ch : Channel} (name : String) (hgo : jobOver s.job = false)
    (hopens : opens ch = true) :
    openTransport name ch s = { s with job := { s.job with link := .up, name := name } } := by
  rw [openTransport, hgo, (opens_iff ch).mp hopens]
  rfl

/-- R139, R142: a job is started from whatever the last one left, and its transport opens. -/
theorem run_startJob {s : State} {name : String} {ch : Channel} {moves : List Move} (ha : s.activity = .idle)
    (hh : s.host = .startJob :: .openTransport name ch :: moves) (hopens : opens ch = true) :
    ∃ t, (∀ n, Host.Core.run core (n + 2) s = Host.Core.run core n t) ∧
      InProgress s.cfg name moves (startOf s) t := by
  have hstart : step s = .next (restarted (.openTransport name ch :: moves) s) :=
    step_hostMove ha hh nofun nofun nofun
  have hopened := (step_openTransport (s := restarted (.openTransport name ch :: moves) s) ha rfl).trans
    (congrArg Host.Outcome.next (openTransport_of_opens name rfl hopens))
  refine ⟨{ restarted moves s with job := { (restarted moves s).job with link := .up, name := name } }, fun n => ?_,
    ⟨rfl, ha, rfl, rfl, rfl, rfl, by constructor <;> rfl⟩⟩
  rw [run_succ, hstart]
  exact (run_succ n _).trans (congrArg (runOn core n) hopened)

/-- The whole job, restarted. -/
theorem does_job {s : State} {mode : Byte} {mf : MediaFormat} {pc : PrintConfig} {bitmap first last : List Byte}
    {mid rest : List Reply} {moves : List Move} {name : String} (hc : s.cfg.wf = true)
    (hmoves : jobMoves s.cfg mode mf pc bitmap = some moves)
    (hfirst : readExact s.cfg.frameLen [] s.job.inbox = .done first mid)
    (hlast : readExact s.cfg.frameLen [] mid = .done last rest)
    (hfirstFits : first.length ≤ s.cfg.maxBytes) (hlastFits : last.length ≤ s.cfg.maxBytes)
    (hbitmap : bitmap.length ≤ s.cfg.maxBytes) (hwhole : bitmap.length % s.cfg.L = 0)
    (hstream : (encodeStream s.cfg (Memory.ofBytes bitmap)).length ≤ s.cfg.maxBytes) :
    Does s.cfg name moves (startOf s)
      { cursor := 15
        wire :=
          [0x1B#8, 0x69#8, 0x61#8, mode] ++ [0x1B#8, 0x40#8] ++ [0x1B#8, 0x69#8, 0x53#8] ++
          List.replicate 64 0x00#8 ++ [0x1B#8, 0x40#8] ++ [0x1B#8, 0x69#8, 0x61#8, mode] ++
          ([0x1B#8, 0x69#8, 0x7A#8] ++ mediaOperands s.cfg mf bitmap.length) ++
          [0x1B#8, 0x69#8, 0x4B#8, flagByte .expanded pc] ++ [0x1B#8, 0x69#8, 0x4D#8, flagByte .mode pc] ++
          commandBytes (marginCommand pc.feedMargin) ++ [0x4D#8, 0x02#8] ++
          encodeStream s.cfg (Memory.ofBytes bitmap) ++ [0x1A#8] ++ [0x1B#8, 0x40#8]
        inbox := rest
        media := some (mediaOperands s.cfg mf bitmap.length)
        query := .decoded (parseReply s.cfg first)
        final := .decoded (parseReply s.cfg last)
        log := s.job.log ++ statusEntries first.length (parseReply s.cfg first) ++
          statusEntries last.length (parseReply s.cfg last)
        inp := Memory.ofBytes last
        out := []
        sf := parseReply s.cfg last } := by
  obtain ⟨hlines, rfl⟩ := jobMoves_eq_some hmoves
  have hask := does_askMoves (name := name) (p := startOf s) mode rfl rfl hfirst hfirstFits
  exact hask.append <| (does_setupMoves mode mf pc bitmap.length rfl).append <|
    (does_printMoves rfl rfl hc hlines hbitmap hwhole hstream).append <| does_closeMoves rfl rfl hlast hlastFits

/-- A closed job's outcome is what its final frame says (R109, R157). -/
theorem jobOutcome_of_closed {s : State} {frame : Option StatusFrame} (hstage : s.job.stage = .closed)
    (hfinal : s.job.final = .decoded frame) : jobOutcome s = frameOutcome frame := by
  simp [jobOutcome, hstage, finalFrame, hfinal]

/-- A frame is a device error where its two error bytes are not both zero (log 35). -/
theorem frameOutcome_some (f : StatusFrame) :
    frameOutcome (some f) =
      if f.error1 = 0#8 ∧ f.error2 = 0#8 then .status f else .deviceError f.errClass f := by
  by_cases h : f.error1 = 0#8 ∧ f.error2 = 0#8
  · simp only [frameOutcome, deviceError, if_pos h]
  · simp only [frameOutcome, deviceError, if_neg h]

/-- Settles O57: two moves start the job, its four parts take it to its end, and the last reply decides the outcome. -/
theorem printJobRunsInOrder : Obligations.PrintJobRunsInOrder := by
  intro s mode mf pc bitmap first last mid rest moves name ch hc ha hmoves hh hopens hfirst hlast hfirstFits hlastFits
    hbitmap hwhole hstream
  obtain ⟨v, hstart, hv⟩ := run_startJob ha hh hopens
  obtain ⟨t, hrun, ht⟩ :=
    (does_job hc hmoves hfirst hlast hfirstFits hlastFits hbitmap hwhole hstream).run hv
  have hlength : moves.length = 21 := by
    rw [(jobMoves_eq_some hmoves).2]
    rfl
  rw [hlength] at hrun
  have houtcome := jobOutcome_of_closed ht.job.stage ht.job.final
  refine ⟨t, _, _, (hstart 21).trans hrun, ht.job.stage, ht.job.reordered, ht.job.miscounted, ht.job.failure,
    ht.job.link, ht.job.name, ht.job.inbox, ht.host, ht.job.query, ht.job.log, margin_toNat pc.feedMargin, ht.job.wire,
    fun hlen => ?_, fun hlen => ?_⟩
  · have hframe : parseReply s.cfg last = some (parseFrame s.cfg last) := if_pos hlen
    rw [hframe] at houtcome
    exact ⟨ht.sf.trans hframe, houtcome.trans (frameOutcome_some _)⟩
  · have hframe : parseReply s.cfg last = none := if_neg hlen
    rw [hframe] at houtcome
    exact ⟨ht.sf.trans hframe, houtcome⟩

end Sys2Proof.Machine

end

/-! ## 60_exceptions.md: what an error leaves behind -/

section

namespace Sys2Proof.Machine

open Sys2Proof

/-- R151: whichever packet check fails, the walk through a stream ends with one of the codes 1 to 5. -/
theorem isFramingError_of_decodeFrom_error {c : Config} {fuel : Nat} {bs out : List Byte} {start pos aux : Nat}
    {cause : Cause} (h : decodeFrom c fuel bs start out = .error cause pos aux) : isFramingError cause = true := by
  induction fuel generalizing bs start out with
  | zero => cases h
  | succ fuel ih =>
    unfold decodeFrom at h
    cases hp : readPacket c.toFormat bs with
    | exhausted => simp only [hp] at h; cases h
    | illegal b => simp only [hp] at h; cases h; rfl
    | truncated left => simp only [hp] at h; cases h; rfl
    | overrun n => simp only [hp] at h; cases h; rfl
    | packet payload rest =>
      cases hr : readLine c out.length payload with
      | malformed q => simp only [hp, hr] at h; cases h; rfl
      | wrongLength len => simp only [hp, hr] at h; cases h; rfl
      | overflow => simp only [hp, hr] at h; cases h
      | line u =>
        simp only [hp, hr] at h
        exact ih h

theorem ne_wrongLength_of_isFramingError {c : Cause} (h : isFramingError c = true) : c ≠ .wrongLength := by
  rintro rfl
  cases h

/-- Settles O48: each operation has at most one way to go on without a success, and it is a `raise` of its own cause. -/
theorem errorsDeliverNothing : Obligations.ErrorsDeliverNothing := by
  intro i s t h herr hi
  obtain rfl | rfl | rfl | ⟨e1, e2, rfl⟩ := hi
  · obtain ⟨-, rfl⟩ | ⟨-, -, rfl⟩ := execEncode_next h
    · simp
    · exact absurd rfl herr
  · obtain ⟨out, -, rfl⟩ | ⟨c, pos, aux, hd, rfl⟩ := execDecode_next h
    · exact absurd rfl herr
    · have hframing : isFramingError c = true := isFramingError_of_decodeFrom_error hd
      simp [hframing, ne_wrongLength_of_isFramingError hframing]
  · obtain ⟨-, he⟩ | ⟨-, he⟩ := execParse_cases s <;> obtain rfl := next_injective (he.symm.trans h)
    · simp
    · exact absurd rfl herr
  · obtain rfl := next_injective h
    exact absurd rfl herr

end Sys2Proof.Machine

end

/-! ## 93_implementation_defined.md U5: where DECODE stops -/

section

namespace Sys2Proof.Machine

open Sys2Proof

/-- R90, U5: a payload's line finds no room exactly where it is a line of `L` bytes and `OUT` has fewer left. -/
theorem readLine_overflow_iff {c : Config} {held : Nat} {payload : List Byte} :
    readLine c held payload = .overflow ↔
      ∃ line, unpack payload = .ok line ∧ line.length = c.L ∧ c.maxBytes < held + c.L := by
  rw [readLine_eq]
  cases unpack payload with
  | error q => exact ⟨nofun, nofun⟩
  | ok u =>
    rw [lineOf, checkLine]
    by_cases hlen : u.length = c.L
    · by_cases hlong : c.maxBytes < held + c.L
      · simp [hlen, hlong]
      · simp [hlen, hlong]
    · simp [hlen]

/-- A walk that finds no room has walked over good packets, whose lines with those before are more than `OUT` holds. -/
theorem decodeFrom_overflow {c : Config} {fuel pos : Nat} {bs out : List Byte}
    (h : decodeFrom c fuel bs pos out = .overflow) :
    ∃ payloads lines rest, GoodPackets c payloads lines ∧ bs = packetStream c.toFormat payloads ++ rest ∧
      c.maxBytes < out.length + lines.flatten.length := by
  induction fuel generalizing bs pos out with
  | zero => cases h
  | succ fuel ih =>
    rw [decodeFrom] at h
    cases hp : readPacket c.toFormat bs with
    | exhausted => simp only [hp] at h; cases h
    | illegal b => simp only [hp] at h; cases h
    | truncated left => simp only [hp] at h; cases h
    | overrun n => simp only [hp] at h; cases h
    | packet payload rest =>
      simp only [hp] at h
      obtain ⟨rfl, hshort⟩ := readPacket_packet hp
      cases hr : readLine c out.length payload with
      | malformed q => simp only [hr] at h; cases h
      | wrongLength len => simp only [hr] at h; cases h
      | overflow =>
        obtain ⟨line, hu, hline, hlong⟩ := readLine_overflow_iff.mp hr
        refine ⟨[payload], [line], rest, (goodPackets_nil c).cons hu hshort hline, ?_, ?_⟩
        · rw [packetStream, List.flatMap_singleton]
        · rwa [List.flatten_singleton, hline]
      | line u =>
        simp only [hr] at h
        obtain ⟨hu, hline, -⟩ := readLine_line hr
        obtain ⟨payloads, lines, rest, hgood, rfl, hlong⟩ := ih h
        refine ⟨payload :: payloads, u :: lines, rest, hgood.cons hu hshort hline, ?_, ?_⟩
        · rw [packetStream_cons, List.append_assoc]
        · rwa [List.flatten_cons, List.length_append, ← Nat.add_assoc, ← List.length_append]

/-- Good packets whose lines `OUT` has no room for stop the walk before it comes to what is behind them. -/
theorem decodeFrom_packetStream_overflow {c : Config} {payloads lines : List (List Byte)}
    (h : GoodPackets c payloads lines) {fuel : Nat} (hfuel : payloads.length ≤ fuel) (rest : List Byte) (pos : Nat)
    {out : List Byte} (hfits : out.length ≤ c.maxBytes) (hlong : c.maxBytes < out.length + lines.flatten.length) :
    decodeFrom c fuel (packetStream c.toFormat payloads ++ rest) pos out = .overflow := by
  induction payloads generalizing lines fuel pos out with
  | nil =>
    rw [h.lines_nil] at hlong
    exact absurd hfits (Nat.not_le.mpr hlong)
  | cons payload payloads ih =>
    obtain ⟨line, lines, rfl, hu, hshort, hline, h'⟩ := h.uncons
    obtain ⟨fuel, rfl⟩ := Nat.exists_eq_add_of_le' (Nat.le_trans (Nat.le_add_left 1 _) hfuel)
    rw [packetStream_cons, List.append_assoc, decodeFrom, readPacket_wrapPacket _ _ _ hshort]
    by_cases hroom : out.length + c.L ≤ c.maxBytes
    · simp only [readLine_of_unpack hu hline hroom]
      refine ih h' (Nat.le_of_succ_le_succ hfuel) _ ?_ ?_
      · rwa [List.length_append, hline]
      · rwa [List.length_append, Nat.add_assoc, ← List.length_append, ← List.flatten_cons]
    · simp only [readLine_overflow_iff.mpr ⟨line, hu, hline, Nat.lt_of_not_le hroom⟩]

/-- R85, U5: the walk through a whole stream finds no room exactly where good packets in front have too many lines. -/
theorem decodeStream_overflow_iff {c : Config} {bs : List Byte} :
    decodeStream c bs = .overflow ↔
      ∃ payloads lines rest, GoodPackets c payloads lines ∧ bs = packetStream c.toFormat payloads ++ rest ∧
        c.maxBytes < lines.flatten.length := by
  constructor
  · intro h
    obtain ⟨payloads, lines, rest, hgood, hbs, hlong⟩ := decodeFrom_overflow h
    exact ⟨payloads, lines, rest, hgood, hbs, by rwa [List.length_nil, Nat.zero_add] at hlong⟩
  · rintro ⟨payloads, lines, rest, hgood, rfl, hlong⟩
    have hfuel : payloads.length ≤ (packetStream c.toFormat payloads ++ rest).length := by
      rw [List.length_append]
      exact Nat.le_add_right_of_le (length_le_packetStream c.toFormat payloads)
    exact decodeFrom_packetStream_overflow hgood hfuel rest 0 (Nat.zero_le _) (by rwa [List.length_nil, Nat.zero_add])

/-- DECODE has no next state exactly where its walk finds no room. -/
theorem exec_decode_stops_iff {s : State} :
    (∀ t, exec .decode s ≠ .next t) ↔ decodeStream s.cfg s.inp.bytes = .overflow := by
  rw [exec_decode]
  cases decodeStream s.cfg s.inp.bytes with
  | done out => exact ⟨fun h => (h _ rfl).elim, nofun⟩
  | error c pos aux => exact ⟨fun h => (h _ rfl).elim, nofun⟩
  | overflow => exact ⟨fun _ => rfl, fun _ t ht => nomatch (ht : Host.Outcome.refused _ = _)⟩

/-- Settles O31: a stop is a walk that finds no room, and the walk finds none exactly behind good packets whose lines are
too long. -/
theorem decodeStopsOnlyWhenTheOutputIsTooLong : Obligations.DecodeStopsOnlyWhenTheOutputIsTooLong := fun _ =>
  ⟨fun h => by rw [exec_decode, exec_decode_stops_iff.mp h, streamAnswer],
    exec_decode_stops_iff.trans decodeStream_overflow_iff⟩

end Sys2Proof.Machine

end

/-! ## 70_reset_and_hazards.md: a reset comes first -/

section

namespace Sys2Proof.Machine

open Sys2Proof

/-- Settles O11: the step is the reset, whatever the block is doing. -/
theorem resetAbandonsTheOperation : Obligations.ResetAbandonsTheOperation := fun s rest hh =>
  ⟨resetBlock { s with host := rest }, step_reset hh, resetBlock_result _, resetBlock_out _, resetBlock_sf _,
    resetBlock_cls _, resetBlock_activity _, resetBlock_host _, resetBlock_job _⟩

end Sys2Proof.Machine

end
